-- ==== Sys2Proof/Word.lean ====
section
/-! DEFINITION. The word types of the surface block: 32-bit registers (rule R20) and 8-bit block bytes and colour
channels (rules R37, R38). Geometry is computed on exact natural numbers (rule R6), so it uses plain `Nat`. -/

namespace Sys2Proof

/-- One register of the block, 32 bits (rule R20). -/
abbrev Word := BitVec 32

/-- One byte of a compressed block, or one 8-bit colour channel (rules R37, R38). -/
abbrev Byte := BitVec 8

end Sys2Proof
end

