-- ==== Sys2Proof/Syntax.lean ====
section
/-! DEFINITION. The commands, the register names, the field codes of the descriptor registers, the events of the
register port and the host-program lines (spec 30_encoding.md, 10_state.md rule R20, 20_memory.md rule R53). -/

namespace Sys2Proof

/-- The eight commands of rule R71, one for each row of the opcode table. A command carries no operand: it reads fixed
registers (rule R81). -/
inductive Instr where
  /-- Report success only (rule R200). -/
  | nop
  /-- Surface-layout calculation (rule R100). -/
  | calculate
  /-- Geometry of one mip level (rule R120). -/
  | geom
  /-- Tiled-address translation (rule R150). -/
  | xlate
  /-- Decode one BC1 block (rule R180). -/
  | bc1
  /-- Decode one BC3 block (rule R181). -/
  | bc3
  /-- Decode one BC4 block (rule R182). -/
  | bc4
  /-- Decode one BC5 block (rule R183). -/
  | bc5
  deriving DecidableEq, Repr

/-- The register names of the table of rule R20, with an index for the three arrays. -/
inductive Reg where
  | cmd | status
  | dim | width | height | depth | mipLevels | format | aa | usage | tileMode | swizzle
  | imageSize | mipmapSize | alignment | pitch
  | mipOffset (i : Fin 13)
  | xlLevel | xlSlice | xlX | xlY | xlOffset
  | lvTileMode | lvPitch | lvHeight | lvSlices | lvSize | lvAlign
  | bcIn (j : Fin 4)
  | bcOut (k : Fin 16)
  deriving DecidableEq, Repr

/-- The eight dimensions of rule R72, in the order of their codes. -/
inductive Dimension where
  | d1 | d1Array | d2 | d2Array | d2Msaa | d2MsaaArray | d3 | cube
  deriving DecidableEq, Repr

/-- What a TILE_MODE value names (rule R74): the request `default`, one of the six concrete modes, or a 32-bit value
that is no tile mode. -/
inductive TileMode where
  /-- Code 0, a request only. -/
  | default
  /-- Code 1. -/
  | linearAligned
  /-- Code 2, 1D-thin. -/
  | thin1D
  /-- Code 3, 1D-thick. -/
  | thick1D
  /-- Code 4, 2D-thin1. -/
  | thin2D
  /-- Code 7, 2D-thick. -/
  | thick2D
  /-- Code 16. -/
  | linearSpecial
  /-- Every other 32-bit value: not a tile mode. -/
  | reserved (code : Word)
  deriving DecidableEq, Repr

/-- The result codes 0 to 9 of rule R80. Codes 2, 3 and 6 are in the code space and no command of the block raises
them (rule R222). -/
inductive ErrCode where
  | ok | imageTooBig | imageNotAligned | imageSizeMismatch | formatNotSupported | tileModeNotSupported | outOfMemory
  | coordOutOfRange | badCommand | layoutNotValid
  deriving DecidableEq, Repr

/-- What reaches the block from outside: a host access to the register space (rules R51, R53), or the platform's reset
input (rule R251). The offset is from `BLOCK_BASE` and lies in the 512 bytes 0x000..0x1FF, so nine bits hold it. The
width of an access is its number of bytes. -/
inductive PortEvent where
  | read (offset : BitVec 9) (width : Nat)
  | write (offset : BitVec 9) (width : Nat) (value : Word)
  | reset
  deriving DecidableEq, Repr

/-- One line of a host program (rule R83), or one of the pseudo-instructions of rule R84. A value is a number of the
program's text, and `HostLine.wellFormed` says that it is below 2^32. -/
inductive HostLine where
  | wr (r : Reg) (value : Nat)
  | rd (r : Reg)
  | cmd (i : Instr)
  | xlate (level slice x y : Nat)
  | geom (level : Nat)
  | bcin (w0 w1 w2 w3 : Nat)
  | check
  deriving DecidableEq, Repr

end Sys2Proof
end

