-- ==== Sys2Proof/Config.lean ====
section
/-! DEFINITION. What the spec leaves to an implementation: the open parameters of 92_eei_decisions.md (`GeomAlign`,
`FallbackRule`, `BLOCK_BASE`), the two further points that 93_implementation_defined.md calls parameters (the level
tile mode with its thresholds, I6; the macro-tile marker, I3), and the one free value of the model. The default values
of the layout parameters are the rules R103, R107, R108 and R111, written in Sys2Proof/Machine/Geometry.lean. -/

namespace Sys2Proof

/-- The four alignments `(pA, hA, dA, bA)` of rule R108: pitch and height in elements, slices, and the base in bytes. -/
structure Align where
  pitch : Nat
  height : Nat
  slices : Nat
  base : Nat
  deriving DecidableEq, Repr, Inhabited

/-- The record `LevelGeom` of rule R109: the geometry of one mip level. `pitchAlign` and `heightAlign` are the record's
`pA` and `hA`. -/
structure Geom where
  mode : TileMode
  pitch : Nat
  height : Nat
  slices : Nat
  size : Nat
  align : Nat
  pitchAlign : Nat
  heightAlign : Nat
  deriving DecidableEq, Repr

/-- The parameters of the layout calculator. The calculator takes them as an argument, and the block of this model runs
with the spec's defaults (`Machine.specParams`). -/
structure LayoutParams where
  /-- `GeomAlign` (rules R5, R108): the alignments of a mode, from the bits per element and the sample count. -/
  geomAlign : TileMode → (bpp samples : Nat) → Align
  /-- `LevelTileMode` (rules R107, R110): the mode of a level, from the level-0 mode, the level, its element extents and
  its slice count. -/
  levelMode : TileMode → (level elemWidth elemHeight slices : Nat) → TileMode
  /-- `FallbackRule` (rules R5, R111): whether level 0 falls back, from its element extents and its geometry. -/
  fallback : (elemWidth elemHeight : Nat) → Geom → Bool
  /-- The macro-tile marker of rule R103. -/
  marker : BitVec 4

/-- `BLOCK_BASE` (rule R51): where the platform puts the register space. The spec gives it no value. -/
opaque Config.blockBase : Nat

/-- FREE VALUE. The alignments in a case for which rule R108 states none: a mode without a row of its table (the request
`default` or a reserved code), or a format of 0 bits per element. No run from reset reaches such a case (log entry 6). -/
opaque Config.unstatedAlign : TileMode → (bpp samples : Nat) → Align

end Sys2Proof
end

