-- ==== Sys2Proof/Machine/State.lean ====
section
/-! DEFINITION. The state of the surface block, every register of rule R20 under its own name, the reasons a step can
stop, and the state after reset (rule R250). All of it is plain data. -/

namespace Sys2Proof.Machine

/-- The descriptor registers (rules R23 to R30): the fields of the Surface that the host describes. -/
structure Descriptor where
  /-- DIM, bits 2:0 (rule R23). -/
  dim : BitVec 3
  /-- WIDTH (rule R24). -/
  width : Word
  /-- HEIGHT (rule R24). -/
  height : Word
  /-- DEPTH (rule R24). -/
  depth : Word
  /-- MIP_LEVELS (rule R25). -/
  mipLevels : Word
  /-- FORMAT, all 32 bits (rule R26). -/
  format : Word
  /-- AA, bits 1:0 (rule R27). -/
  aa : BitVec 2
  /-- USE, bits 3:0 (rule R28). -/
  usage : BitVec 4
  /-- TILE_MODE, all 32 bits (rule R29). -/
  tileMode : Word
  /-- SWIZZLE, all 32 bits (rule R30). -/
  swizzle : Word
  deriving DecidableEq, Repr

/-- The computed layout registers (rules R31 to R33), which only CALC writes. -/
structure LayoutRegs where
  /-- IMAGE_SIZE (rule R31). -/
  imageSize : Word
  /-- MIPMAP_SIZE (rule R32). -/
  mipmapSize : Word
  /-- ALIGNMENT (rule R31). -/
  alignment : Word
  /-- PITCH (rule R31). -/
  pitch : Word
  /-- MIP_OFFSET[0..12] (rule R33). -/
  mipOffset : Vector Word 13
  deriving DecidableEq, Repr

/-- The operand registers of GEOM and XLATE (rule R34). -/
structure XlOperands where
  /-- XL_LEVEL. -/
  level : Word
  /-- XL_SLICE. -/
  slice : Word
  /-- XL_X. -/
  x : Word
  /-- XL_Y. -/
  y : Word
  deriving DecidableEq, Repr

/-- The level geometry registers LV_* (rule R36), which only GEOM and XLATE write. -/
structure LevelRegs where
  /-- LV_TILE_MODE. -/
  tileMode : Word
  /-- LV_PITCH. -/
  pitch : Word
  /-- LV_HEIGHT. -/
  height : Word
  /-- LV_SLICES. -/
  slices : Word
  /-- LV_SIZE. -/
  size : Word
  /-- LV_ALIGN. -/
  align : Word
  deriving DecidableEq, Repr

/-- The whole state. The first nine fields are the block's (rules R20, R22, R41, R42). The last two are the MODEL's own
(log entries 1 and 2): what waits at the port, and what the last read returned to the host. -/
structure State where
  /-- STATUS.ERR, bits 3:0 of STATUS (rule R22). -/
  err : BitVec 4
  /-- LAYOUT_VALID, bit 4 of STATUS (rules R22, R41). -/
  layoutValid : Bool
  desc : Descriptor
  layout : LayoutRegs
  xl : XlOperands
  /-- XL_OFFSET (rule R35). -/
  xlOffset : Word
  lv : LevelRegs
  /-- BC_IN[0..3] (rule R37). -/
  bcIn : Vector Word 4
  /-- BC_OUT[0..15] (rule R38). -/
  bcOut : Vector Word 16
  /-- MODEL. The port events that the block has still to serve, the next one first (rule R57). -/
  pending : List PortEvent
  /-- MODEL. The value that the last read returned to the host (rule R83), `none` before the first read. -/
  readData : Option Word
  deriving DecidableEq, Repr

/-- The block never stops with a fault: each error is a code in STATUS.ERR after which the block goes on (rules R223,
R227). So there is no fault, and the type is empty. -/
inductive Fault where
  deriving DecidableEq, Repr

/-- Why a step can be refused. -/
inductive Refusal where
  /-- Raised by an arm of `exec` for an instruction without a meaning: no arm of this model does. Safe: the model stops
  where the hardware goes on. -/
  | notModelled (mnemonic : String)
  /-- Raised by `servePort` for a host access that is not an aligned 32-bit access (BusError, rules R53, R229): the
  spec says that a model refuses it and defines no state after it. Safe: nothing can be proved of what follows. -/
  | busError
  deriving DecidableEq, Repr

/-- The state after reset (rule R250): every register is 0 and LAYOUT_VALID is 0. The port has nothing to serve and has
returned nothing (the model's own two fields). -/
def State.reset : State where
  err := 0
  layoutValid := false
  desc :=
    { dim := 0, width := 0, height := 0, depth := 0, mipLevels := 0, format := 0, aa := 0, usage := 0,
      tileMode := 0, swizzle := 0 }
  layout :=
    { imageSize := 0, mipmapSize := 0, alignment := 0, pitch := 0, mipOffset := Vector.replicate 13 0 }
  xl := { level := 0, slice := 0, x := 0, y := 0 }
  xlOffset := 0
  lv := { tileMode := 0, pitch := 0, height := 0, slices := 0, size := 0, align := 0 }
  bcIn := Vector.replicate 4 0
  bcOut := Vector.replicate 16 0
  pending := []
  readData := none

end Sys2Proof.Machine
end

