-- ==== Sys2Proof/Machine/Flags.lean ====
section
/-! DEFINITION. STATUS: the result codes (rule R80) and the word that a read of STATUS returns (rule R22). -/

namespace Sys2Proof

/-- The number of a result code (rule R80). -/
def ErrCode.code : ErrCode → BitVec 4
  | .ok => 0
  | .imageTooBig => 1
  | .imageNotAligned => 2
  | .imageSizeMismatch => 3
  | .formatNotSupported => 4
  | .tileModeNotSupported => 5
  | .outOfMemory => 6
  | .coordOutOfRange => 7
  | .badCommand => 8
  | .layoutNotValid => 9

end Sys2Proof

namespace Sys2Proof.Machine

/-- The STATUS register: ERR in bits 3:0, LAYOUT_VALID in bit 4, bits 31:5 read as 0 (rule R22). -/
def State.statusWord (s : State) : Word := (0 : BitVec 27) ++ BitVec.ofBool s.layoutValid ++ s.err

end Sys2Proof.Machine
end

