-- ==== Sys2Proof/WellFormed.lean ====
section
/-! DEFINITION. What makes a command, a port event and a host-program line well-formed. -/

namespace Sys2Proof

/-- A command has no operand (rule R81), so each of the eight is well-formed. -/
def Instr.wellFormed : Instr → Bool
  | .nop | .calculate | .geom | .xlate | .bc1 | .bc3 | .bc4 | .bc5 => true

/-- The host may access the register space only with aligned 32-bit reads and writes (rule R53). -/
def PortEvent.wellFormed : PortEvent → Bool
  | .read offset width => width == 4 && offset.toNat % 4 == 0
  | .write offset width _ => width == 4 && offset.toNat % 4 == 0
  | .reset => true

/-- The values of a host-program line are below 2^32 (rule R83). -/
def HostLine.wellFormed : HostLine → Bool
  | .wr _ v => v < 2 ^ 32
  | .rd _ | .check => true
  | .cmd i => i.wellFormed
  | .xlate l s x y => l < 2 ^ 32 && s < 2 ^ 32 && x < 2 ^ 32 && y < 2 ^ 32
  | .geom l => l < 2 ^ 32
  | .bcin w0 w1 w2 w3 => w0 < 2 ^ 32 && w1 < 2 ^ 32 && w2 < 2 ^ 32 && w3 < 2 ^ 32

end Sys2Proof
end

