-- ==== Sys2Proof/Decode.lean ====
section
/-! DEFINITION. The decoder of command words (rules R70, R71, R79), the encoder, the register map (rule R20) and the
encoding of host-program lines (rules R83, R84). -/

namespace Sys2Proof

/-- The command that a word written to CMD starts (rules R70, R71). `none`: the word is reserved (rule R79), and the
write raises BadCommand. -/
def decode (w : Word) : Option Instr :=
  if w.extractLsb' 8 24 ≠ 0 then none
  else
    match (w.extractLsb' 0 8).toNat with
    | 0x00 => some .nop
    | 0x01 => some .calculate
    | 0x02 => some .geom
    | 0x03 => some .xlate
    | 0x31 => some .bc1
    | 0x33 => some .bc3
    | 0x34 => some .bc4
    | 0x35 => some .bc5
    | _ => none

/-- The OP code of a command (rule R71). -/
def opcode : Instr → BitVec 8
  | .nop => 0x00
  | .calculate => 0x01
  | .geom => 0x02
  | .xlate => 0x03
  | .bc1 => 0x31
  | .bc3 => 0x33
  | .bc4 => 0x34
  | .bc5 => 0x35

/-- The command word CMDW of a command (rule R70): OP in bits 7:0, bits 31:8 zero. -/
def encode (i : Instr) : Word := (0 : BitVec 24) ++ opcode i

/-- The command word whose bits are `w`, numbered as the opcode table numbers them, with every bit from `nbits` on zero.
Every command is one 32-bit word (rule R82), so there is no order of words or bytes to choose. -/
def tableWord (nbits w : Nat) : Word := BitVec.ofNat 32 (w % 2 ^ nbits)

/-- The command that the decoder reads from the command word whose bits are `w`. -/
def decodeTableWord (nbits w : Nat) : Option Instr := decode (tableWord nbits w)

/-- The byte offset of a register (the table of rule R20). -/
def Reg.offset : Reg → BitVec 9
  | .cmd => 0x000
  | .status => 0x004
  | .dim => 0x010
  | .width => 0x014
  | .height => 0x018
  | .depth => 0x01C
  | .mipLevels => 0x020
  | .format => 0x024
  | .aa => 0x028
  | .usage => 0x02C
  | .tileMode => 0x030
  | .swizzle => 0x034
  | .imageSize => 0x038
  | .mipmapSize => 0x03C
  | .alignment => 0x040
  | .pitch => 0x044
  | .mipOffset i => BitVec.ofNat 9 (0x048 + 4 * i.val)
  | .xlLevel => 0x080
  | .xlSlice => 0x084
  | .xlX => 0x088
  | .xlY => 0x08C
  | .xlOffset => 0x090
  | .lvTileMode => 0x094
  | .lvPitch => 0x098
  | .lvHeight => 0x09C
  | .lvSlices => 0x0A0
  | .lvSize => 0x0A4
  | .lvAlign => 0x0A8
  | .bcIn j => BitVec.ofNat 9 (0x0C0 + 4 * j.val)
  | .bcOut k => BitVec.ofNat 9 (0x0D0 + 4 * k.val)

/-- Every register of the block (rule R20). -/
def Reg.all : List Reg :=
  [.cmd, .status, .dim, .width, .height, .depth, .mipLevels, .format, .aa, .usage, .tileMode, .swizzle,
    .imageSize, .mipmapSize, .alignment, .pitch]
  ++ (List.finRange 13).map .mipOffset
  ++ [.xlLevel, .xlSlice, .xlX, .xlY, .xlOffset, .lvTileMode, .lvPitch, .lvHeight, .lvSlices, .lvSize, .lvAlign]
  ++ (List.finRange 4).map .bcIn
  ++ (List.finRange 16).map .bcOut

/-- The register at an offset. `none`: the aligned word there is unmapped (rule R51). -/
def Reg.ofOffset (o : BitVec 9) : Option Reg := Reg.all.find? (fun r => r.offset == o)

/-- An aligned 32-bit write of a value to a register, as a port event (rule R83). -/
def writeEvent (r : Reg) (v : Nat) : PortEvent := .write r.offset 4 (BitVec.ofNat 32 v)

/-- An aligned 32-bit read of a register, as a port event (rule R83). -/
def readEvent (r : Reg) : PortEvent := .read r.offset 4

/-- The write to CMD that starts a command: the pseudo-instruction `cmd M` (rules R83, R84). -/
def commandEvent (i : Instr) : PortEvent := .write Reg.cmd.offset 4 (encode i)

/-- The accesses that a host-program line stands for, in order (rules R83, R84). -/
def HostLine.encode : HostLine → List PortEvent
  | .wr r v => [writeEvent r v]
  | .rd r => [readEvent r]
  | .cmd i => [commandEvent i]
  | .xlate l s x y =>
    [writeEvent .xlLevel l, writeEvent .xlSlice s, writeEvent .xlX x, writeEvent .xlY y, commandEvent .xlate,
      readEvent .xlOffset]
  | .geom l => [writeEvent .xlLevel l, commandEvent .geom]
  | .bcin w0 w1 w2 w3 =>
    [writeEvent (.bcIn 0) w0, writeEvent (.bcIn 1) w1, writeEvent (.bcIn 2) w2, writeEvent (.bcIn 3) w3]
  | .check => [readEvent .status]

/-- The offset in the block's register space that a platform address selects, when the register space stands at `base`
(rule R51). `none`: the address is outside the 512 bytes, and the access does not reach the block. -/
def blockOffset (base addr : Nat) : Option (BitVec 9) :=
  if base ≤ addr ∧ addr < base + 512 then some (BitVec.ofNat 9 (addr - base)) else none

end Sys2Proof
end

