-- ==== Sys2Proof/Machine/Operands.lean ====
section
/-! DEFINITION. How a command reads its operand registers: dimension and tile-mode codes (rules R72, R74, R75), usage
flags (R73), the format table (R39), the sample count (R27), the swizzle seed (R76), the bytes of a compressed block
(R37), and the packing of a texel into an output register (R38). -/

namespace Sys2Proof

/-- The dimension that a DIM code names (rule R72). -/
def Dimension.ofCode (c : BitVec 3) : Dimension :=
  match c.toNat with
  | 0 => .d1
  | 1 => .d1Array
  | 2 => .d2
  | 3 => .d2Array
  | 4 => .d2Msaa
  | 5 => .d2MsaaArray
  | 6 => .d3
  | _ => .cube

/-- The height counts for every dimension but 1D and 1D-array (rules R104, R105). -/
def Dimension.isOneDim : Dimension → Bool
  | .d1 | .d1Array => true
  | .d2 | .d2Array | .d2Msaa | .d2MsaaArray | .d3 | .cube => false

/-- What a TILE_MODE value names (rule R74). -/
def TileMode.ofCode (w : Word) : TileMode :=
  match w.toNat with
  | 0 => .default
  | 1 => .linearAligned
  | 2 => .thin1D
  | 3 => .thick1D
  | 4 => .thin2D
  | 7 => .thick2D
  | 16 => .linearSpecial
  | _ => .reserved w

/-- The code of a tile mode (rule R74). -/
def TileMode.code : TileMode → Word
  | .default => 0
  | .linearAligned => 1
  | .thin1D => 2
  | .thick1D => 3
  | .thin2D => 4
  | .thick2D => 7
  | .linearSpecial => 16
  | .reserved w => w

/-- `IsMacro(m)`: `m ≥ 4` and `m ≠ 16` (rule R75). -/
def TileMode.isMacro (m : TileMode) : Bool := decide (4 ≤ m.code.toNat ∧ m.code.toNat ≠ 16)

/-- `IsThick(m)`: `m` is 3 or 7 (rule R75). -/
def TileMode.isThick (m : TileMode) : Bool := decide (m.code.toNat = 3 ∨ m.code.toNat = 7)

/-- TILE_MODE holds one of the seven codes that CALC accepts (rules R74, R101). -/
def TileMode.isAssigned : TileMode → Bool
  | .default | .linearAligned | .thin1D | .thick1D | .thin2D | .thick2D | .linearSpecial => true
  | .reserved _ => false

/-- The mode is one of the six that a surface can have after CALC (rules R29, R74). -/
def TileMode.isConcrete : TileMode → Bool
  | .linearAligned | .thin1D | .thick1D | .thin2D | .thick2D | .linearSpecial => true
  | .default | .reserved _ => false

/-- XLATE has an address formula for the mode: 2, 3, 4 and 16 (rules R74, R150, R156). -/
def TileMode.hasFormula : TileMode → Bool
  | .thin1D | .thick1D | .thin2D | .linearSpecial => true
  | .default | .linearAligned | .thick2D | .reserved _ => false

end Sys2Proof

namespace Sys2Proof.Machine

/-- The format table `FMT`, bits per element (rule R39): 0 for an unsupported code. -/
def formatBpp (code : BitVec 6) : Nat :=
  match code.toNat with
  | 0x07 => 16
  | 0x08 => 16
  | 0x1A => 32
  | 0x31 => 64
  | 0x33 => 128
  | 0x34 => 64
  | 0x35 => 128
  | _ => 0

/-- The format table `FMT`, whether the format is block-compressed (rule R39). -/
def formatIsBc (code : BitVec 6) : Bool :=
  match code.toNat with
  | 0x31 | 0x33 | 0x34 | 0x35 => true
  | _ => false

/-- FORMAT[5:0], the index into the format table (rules R26, R77). -/
def Descriptor.formatCode (d : Descriptor) : BitVec 6 := d.format.extractLsb' 0 6

/-- Bits per element of the surface (rules R8, R39). -/
def Descriptor.bpp (d : Descriptor) : Nat := formatBpp d.formatCode

/-- Bytes per element of the surface (rules R8, R140). -/
def Descriptor.bytes (d : Descriptor) : Nat := d.bpp / 8

/-- Whether the surface is block-compressed (rule R39). -/
def Descriptor.isBc (d : Descriptor) : Bool := formatIsBc d.formatCode

/-- The dimension of the surface (rule R72). -/
def Descriptor.dimension (d : Descriptor) : Dimension := Dimension.ofCode d.dim

/-- The sample count, `1 << AA[1:0]` (rules R27, R78). -/
def Descriptor.samples (d : Descriptor) : Nat := 1 <<< d.aa.toNat

/-- USE[1], the colour-buffer flag (rule R73). -/
def Descriptor.colorBuffer (d : Descriptor) : Bool := d.usage.getLsbD 1

/-- USE[2], the depth-buffer flag (rule R73). -/
def Descriptor.depthBuffer (d : Descriptor) : Bool := d.usage.getLsbD 2

/-- What TILE_MODE names (rule R74). -/
def Descriptor.requestedMode (d : Descriptor) : TileMode := TileMode.ofCode d.tileMode

/-- The bank/pipe seed bits that XLATE reads: SWIZZLE bits 10:8 (rules R76, R153, R158). -/
def Descriptor.seedBits (d : Descriptor) : Nat := (d.swizzle.toNat >>> 8) &&& 7

/-- One texel of a decoded block, four 8-bit channels (rule R38). -/
structure Texel where
  r : Byte
  g : Byte
  b : Byte
  a : Byte
  deriving DecidableEq, Repr

/-- The register value of a texel: R in bits 7:0, G in 15:8, B in 23:16, A in 31:24 (rules R38, R170). -/
def Texel.pack (t : Texel) : Word := t.a ++ t.b ++ t.g ++ t.r

/-- Byte `b[k]` of the compressed input, `k < 16`: byte `4j + n` is bits `8n+7:8n` of BC_IN[j] (rule R37). -/
def State.bcByte (s : State) (k : Fin 16) : Byte :=
  (s.bcIn[k.val / 4]'(by omega)).extractLsb' (8 * (k.val % 4)) 8

/-- The 8-byte block `b[0..7]`, from BC_IN[0..1] (rules R37, R180 to R183). -/
def State.lowBlock (s : State) (k : Fin 8) : Byte := s.bcByte ⟨k.val, by omega⟩

/-- The 8-byte block `b[8..15]`, from BC_IN[2..3] (rules R37, R181, R183). -/
def State.highBlock (s : State) (k : Fin 8) : Byte := s.bcByte ⟨8 + k.val, by omega⟩

end Sys2Proof.Machine
end

