-- ==== Sys2Proof/Machine/Ops.lean ====
section
/-! DEFINITION. The shared operations: the arithmetic of rule R6, reporting an error or success (rules R223, R224), and
the host's reads and writes of registers (rules R20, R41, R45, R54). -/

namespace Sys2Proof.Machine

/-- `RoundUp(a, b)` for `b ≥ 1` (rule R6). -/
def roundUp (a b : Nat) : Nat := (a + b - 1) / b * b

/-- `BitLen(v)`: how many times `v` can be halved before it reaches 0 (rules R6, R104). -/
def bitLen (v : Nat) : Nat := if v = 0 then 0 else Nat.log2 v + 1

/-- `NextPow2(v)`: the least power of two that is at least `v`, for `v ≥ 1` (rule R6). -/
def nextPow2 (v : Nat) : Nat := 2 ^ bitLen (v - 1)

/-- `v & ~m`: the bits of `v` that are not in the mask (rule R6). -/
def clearBits (v m : Nat) : Nat := v ^^^ (v &&& m)

/-- What a command that raises an error records: STATUS.ERR, and nothing else (rule R223). This is all there is to
taking an exception on this block: there is no handler, no saved state and no return (rule R227). -/
def State.raise (s : State) (e : ErrCode) : State := { s with err := e.code }

/-- What a CALC that raises an error records: STATUS.ERR, and LAYOUT_VALID becomes 0 (rules R41, R223). -/
def State.raiseCalc (s : State) (e : ErrCode) : State := { s with err := e.code, layoutValid := false }

/-- What a command that succeeds writes beside its results: STATUS.ERR is OK (rule R224). -/
def State.succeed (s : State) : State := { s with err := ErrCode.ok.code }

/-- The value of a register (rules R20, R21 to R38): CMD reads 0, and narrow fields read zero-extended. -/
def State.readReg (s : State) : Reg → Word
  | .cmd => 0
  | .status => s.statusWord
  | .dim => s.desc.dim.setWidth 32
  | .width => s.desc.width
  | .height => s.desc.height
  | .depth => s.desc.depth
  | .mipLevels => s.desc.mipLevels
  | .format => s.desc.format
  | .aa => s.desc.aa.setWidth 32
  | .usage => s.desc.usage.setWidth 32
  | .tileMode => s.desc.tileMode
  | .swizzle => s.desc.swizzle
  | .imageSize => s.layout.imageSize
  | .mipmapSize => s.layout.mipmapSize
  | .alignment => s.layout.alignment
  | .pitch => s.layout.pitch
  | .mipOffset i => s.layout.mipOffset.get i
  | .xlLevel => s.xl.level
  | .xlSlice => s.xl.slice
  | .xlX => s.xl.x
  | .xlY => s.xl.y
  | .xlOffset => s.xlOffset
  | .lvTileMode => s.lv.tileMode
  | .lvPitch => s.lv.pitch
  | .lvHeight => s.lv.height
  | .lvSlices => s.lv.slices
  | .lvSize => s.lv.size
  | .lvAlign => s.lv.align
  | .bcIn j => s.bcIn.get j
  | .bcOut k => s.bcOut.get k

/-- What a read at an offset returns: the register's value, or 0 where the word is unmapped (rules R45, R54). -/
def State.readOffset (s : State) (offset : BitVec 9) : Word :=
  match Reg.ofOffset offset with
  | some r => s.readReg r
  | none => 0

/-- The host stores a descriptor register, which clears LAYOUT_VALID whether or not the value changes (rules R41,
R255). -/
def State.setDesc (s : State) (d : Descriptor) : State := { s with desc := d, layoutValid := false }

/-- A host write of `v` to a register other than CMD (rules R20, R22 to R38): DIM, AA and USE keep their low bits, and a
write to a read-only register is ignored. The case of CMD is not used here: a CMD write runs a command (rule R21). -/
def State.hostWrite (s : State) (v : Word) : Reg → State
  | .dim => s.setDesc { s.desc with dim := v.extractLsb' 0 3 }
  | .width => s.setDesc { s.desc with width := v }
  | .height => s.setDesc { s.desc with height := v }
  | .depth => s.setDesc { s.desc with depth := v }
  | .mipLevels => s.setDesc { s.desc with mipLevels := v }
  | .format => s.setDesc { s.desc with format := v }
  | .aa => s.setDesc { s.desc with aa := v.extractLsb' 0 2 }
  | .usage => s.setDesc { s.desc with usage := v.extractLsb' 0 4 }
  | .tileMode => s.setDesc { s.desc with tileMode := v }
  | .swizzle => s.setDesc { s.desc with swizzle := v }
  | .xlLevel => { s with xl := { s.xl with level := v } }
  | .xlSlice => { s with xl := { s.xl with slice := v } }
  | .xlX => { s with xl := { s.xl with x := v } }
  | .xlY => { s with xl := { s.xl with y := v } }
  | .bcIn j => { s with bcIn := s.bcIn.set j.val v j.isLt }
  | .cmd | .status | .imageSize | .mipmapSize | .alignment | .pitch | .mipOffset _ | .xlOffset | .lvTileMode
  | .lvPitch | .lvHeight | .lvSlices | .lvSize | .lvAlign | .bcOut _ => s

/-- The block after the platform's reset input (rules R250 to R252): every register at its reset value. The events that
still wait at the port are the host's and stay. -/
def State.afterReset (s : State) : State := { State.reset with pending := s.pending }

end Sys2Proof.Machine
end

