-- ==== Sys2Proof/Machine/BlockDecode.lean ====
section
/-! DEFINITION. The block decompressors BC1, BC3, BC4 and BC5 (rules R170 to R186). -/

namespace Sys2Proof.Machine

/-- The fields of an 8-byte block are read as little-endian numbers (rules R55, R171, R176). -/
def le16 (lo hi : Byte) : BitVec 16 := hi ++ lo

/-- A 24-bit little-endian number (rules R55, R176). -/
def le24 (b0 b1 b2 : Byte) : BitVec 24 := b2 ++ b1 ++ b0

/-- `Expand565` (rule R171): each channel is shifted left, with zeros below, and alpha is 0xFF (rule R173). -/
def expand565 (c : BitVec 16) : Texel where
  r := c.extractLsb' 11 5 ++ (0 : BitVec 3)
  g := c.extractLsb' 5 6 ++ (0 : BitVec 2)
  b := c.extractLsb' 0 5 ++ (0 : BitVec 3)
  a := 0xFF

/-- The interpolation law for one channel: `(p0·(N - i) + p1·i) / N`, rounded down (rule R172). -/
def interp (p0 p1 : Byte) (N i : Nat) : Byte := BitVec.ofNat 8 ((p0.toNat * (N - i) + p1.toNat * i) / N)

/-- The interpolation law for the three colour channels, with alpha 0xFF (rules R172, R173). -/
def interpColor (p0 p1 : Texel) (N i : Nat) : Texel where
  r := interp p0.r p1.r N i
  g := interp p0.g p1.g N i
  b := interp p0.b p1.b N i
  a := 0xFF

/-- An entry of the four-entry colour palette `Pal4` (rule R173). `forced` takes the four-colour palette whatever the
order of the endpoints (rule R181). -/
def pal4 (color0 color1 : BitVec 16) (forced : Bool) (index : BitVec 2) : Texel :=
  let p0 := expand565 color0
  let p1 := expand565 color1
  if forced ∨ color1.toNat < color0.toNat then
    match index.toNat with
    | 0 => p0
    | 1 => p1
    | 2 => interpColor p0 p1 3 1
    | _ => interpColor p0 p1 3 2
  else
    match index.toNat with
    | 0 => p0
    | 1 => p1
    | 2 => interpColor p0 p1 2 1
    | _ => { r := 0, g := 0, b := 0, a := 0 }

/-- An entry of the eight-entry channel palette `Pal8` (rule R175). -/
def pal8 (a0 a1 : Byte) (index : BitVec 3) : Byte :=
  let i := index.toNat
  if i = 0 then a0
  else if i = 1 then a1
  else if a1.toNat < a0.toNat then interp a0 a1 7 (i - 1)
  else if i = 6 then 0x00
  else if i = 7 then 0xFF
  else interp a0 a1 5 (i - 1)

/-- The colour index of texel `k` in a colour block (rule R174): one byte a row, the least-significant pair first. -/
def colorIndex (c : Fin 8 → Byte) (k : Fin 16) : BitVec 2 :=
  (c ⟨4 + k.val / 4, by omega⟩).extractLsb' (2 * (k.val % 4)) 2

/-- The channel index of texel `k` in a channel block (rule R176): two 24-bit groups of eight 3-bit fields. -/
def channelIndex (a : Fin 8 → Byte) (k : Fin 16) : BitVec 3 :=
  if k.val < 8 then (le24 (a 2) (a 3) (a 4)).extractLsb' (3 * k.val) 3
  else (le24 (a 5) (a 6) (a 7)).extractLsb' (3 * (k.val - 8)) 3

/-- The colour of texel `k` of a colour block (rules R171, R173, R174). -/
def colorTexel (c : Fin 8 → Byte) (forced : Bool) (k : Fin 16) : Texel :=
  pal4 (le16 (c 0) (c 1)) (le16 (c 2) (c 3)) forced (colorIndex c k)

/-- The value of texel `k` of a channel block (rules R175, R176). -/
def channelValue (a : Fin 8 → Byte) (k : Fin 16) : Byte := pal8 (a 0) (a 1) (channelIndex a k)

/-- A decoder writes all sixteen texels, row by row (rules R38, R170). -/
def State.writeTexels (s : State) (t : Fin 16 → Texel) : State := { s with bcOut := Vector.ofFn fun k => (t k).pack }

/-- The texels of BC1 (rule R180). -/
def State.bc1Texel (s : State) (k : Fin 16) : Texel := colorTexel s.lowBlock false k

/-- The texels of BC3 (rule R181): the alpha block comes first, and the colour block's own alpha is discarded. -/
def State.bc3Texel (s : State) (k : Fin 16) : Texel :=
  { colorTexel s.highBlock true k with a := channelValue s.lowBlock k }

/-- The texels of BC4 (rule R182). -/
def State.bc4Texel (s : State) (k : Fin 16) : Texel := { r := channelValue s.lowBlock k, g := 0, b := 0, a := 0xFF }

/-- The texels of BC5 (rule R183): the red block comes first. -/
def State.bc5Texel (s : State) (k : Fin 16) : Texel :=
  { r := channelValue s.lowBlock k, g := channelValue s.highBlock k, b := 0, a := 0xFF }

/-- BC1 (rule R180). -/
def execBc1 (s : State) : Host.Outcome State Fault Refusal := .next (s.writeTexels s.bc1Texel).succeed

/-- BC3 (rule R181). -/
def execBc3 (s : State) : Host.Outcome State Fault Refusal := .next (s.writeTexels s.bc3Texel).succeed

/-- BC4 (rule R182). -/
def execBc4 (s : State) : Host.Outcome State Fault Refusal := .next (s.writeTexels s.bc4Texel).succeed

/-- BC5 (rule R183). -/
def execBc5 (s : State) : Host.Outcome State Fault Refusal := .next (s.writeTexels s.bc5Texel).succeed

end Sys2Proof.Machine
end

