-- ==== Sys2Proof/Machine/Control.lean ====
section
/-! DEFINITION. The command that only reports: NOP (rule R200). -/

namespace Sys2Proof.Machine

/-- NOP (rule R200): STATUS.ERR is OK, and nothing else changes. -/
def execNop (s : State) : Host.Outcome State Fault Refusal := .next s.succeed

end Sys2Proof.Machine
end

