-- ==== Sys2Proof/Machine/Geometry.lean ====
section
/-! DEFINITION. The geometry of a mip level (rules R102 to R109), shared by CALC, GEOM and XLATE, and the spec's default
layout parameters. -/

namespace Sys2Proof.Machine

/-- `DefaultMode(dim, aa, use)`: what the request `default` resolves to (rule R102). -/
def Descriptor.defaultMode (d : Descriptor) : TileMode :=
  if d.dimension = .d1 ∧ d.aa = 0 ∧ d.depthBuffer = false then .linearAligned
  else if d.dimension = .d3 ∧ d.colorBuffer = false then .thick2D
  else .thin2D

/-- `MipCount(req, dim, W, H, D)`: the number of mip levels (rule R104). -/
def Descriptor.mipCount (d : Descriptor) : Nat :=
  if d.mipLevels.toNat ≤ 1 then 1
  else
    let h := if d.dimension.isOneDim then 1 else d.height.toNat
    let depthLen := if d.dimension = .d3 then bitLen d.depth.toNat else 0
    max (max (max (bitLen d.width.toNat) (bitLen h)) depthLen) 1

/-- `w_L`: the width of level `L` in pixels (rule R105). -/
def Descriptor.levelWidth (d : Descriptor) (L : Nat) : Nat := max (d.width.toNat >>> L) 1

/-- `h_L`: the height of level `L` in pixels (rule R105). -/
def Descriptor.levelHeight (d : Descriptor) (L : Nat) : Nat :=
  if d.dimension.isOneDim then 1 else max (d.height.toNat >>> L) 1

/-- `s_L`: the slice count of level `L` (rule R105). -/
def Descriptor.levelSlices (d : Descriptor) (L : Nat) : Nat :=
  match d.dimension with
  | .d3 => max (d.depth.toNat >>> L) 1
  | .cube => max d.depth.toNat 6
  | .d1Array | .d2Array | .d2MsaaArray => max d.depth.toNat 1
  | .d1 | .d2 | .d2Msaa => 1

/-- An extent in elements: a block-compressed format counts 4 × 4 blocks, rounded up (rule R106). -/
def Descriptor.inElements (d : Descriptor) (extent : Nat) : Nat := if d.isBc then (extent + 3) / 4 else extent

/-- `ew_L`: the width of level `L` in elements (rule R106). -/
def Descriptor.elemWidth (d : Descriptor) (L : Nat) : Nat := d.inElements (d.levelWidth L)

/-- `eh_L`: the height of level `L` in elements (rule R106). -/
def Descriptor.elemHeight (d : Descriptor) (L : Nat) : Nat := d.inElements (d.levelHeight L)

/-- `LevelTileMode(m, L)` (rule R107), from the element extents and the slice count of the level. -/
def levelTileMode (m : TileMode) (L ew eh slices : Nat) : TileMode :=
  if L = 0 then m
  else
    let small := nextPow2 ew < 32 ∨ nextPow2 eh < 16
    let few := nextPow2 slices < 4
    let m := if m = .thick2D ∧ few then .thin2D else m
    let m := if m = .thin2D ∧ small then .thin1D else m
    let m := if m = .thick2D ∧ small then .thick1D else m
    if m = .thick1D ∧ few then .thin1D else m

/-- The thickness of a tile mode, 4 or 1 (rules R74, R108). -/
def TileMode.thickness (m : TileMode) : Nat := if m.isThick then 4 else 1

/-- The pitch alignment of the macro modes (rule R108). -/
def macroPitchAlign (m : TileMode) (bpp samples : Nat) : Nat :=
  max 32 (32 * (256 / bpp / (8 * TileMode.thickness m) / samples))

/-- `Align(m)`, the table of rule R108. Where the table has no row, or divides by 0 bits per element, the alignments are
a free value (log entry 6). -/
def tableAlign (m : TileMode) (bpp samples : Nat) : Align :=
  if bpp = 0 then Config.unstatedAlign m bpp samples
  else
    match m with
    | .linearSpecial => { pitch := 1, height := 1, slices := 1, base := 1 }
    | .linearAligned => { pitch := max 64 (2048 / bpp), height := 1, slices := 1, base := 256 }
    | .thin1D | .thick1D =>
      { pitch := max 8 (256 / bpp / samples / TileMode.thickness m), height := 8,
        slices := TileMode.thickness m, base := 256 }
    | .thin2D | .thick2D =>
      { pitch := macroPitchAlign m bpp samples, height := 16, slices := TileMode.thickness m,
        base := samples * macroPitchAlign m bpp samples * 16 * bpp / 8 }
    | .default | .reserved _ => Config.unstatedAlign m bpp samples

/-- The default of `FallbackRule`: both element extents are below the alignments (rule R111). -/
def bothBelowAlign (ew eh : Nat) (g : Geom) : Bool := ew < g.pitchAlign && eh < g.heightAlign

/-- The layout parameters with the spec's defaults (rules R5, R103, R107, R108, R111). The block of this model runs with
these (log entry 5). -/
def specParams : LayoutParams where
  geomAlign := tableAlign
  levelMode := levelTileMode
  fallback := bothBelowAlign
  marker := 13

/-- `LevelGeom(m, L)`: the geometry of level `L` of a surface whose level-0 mode is `m` (rule R109). -/
def Descriptor.levelGeom (P : LayoutParams) (d : Descriptor) (m : TileMode) (L : Nat) : Geom :=
  let mode := P.levelMode m L (d.elemWidth L) (d.elemHeight L) (d.levelSlices L)
  let al := P.geomAlign mode d.bpp d.samples
  let pitch := roundUp (d.elemWidth L) al.pitch
  let height := roundUp (d.elemHeight L) al.height
  let slices := roundUp (d.levelSlices L) al.slices
  { mode := mode, pitch := pitch, height := height, slices := slices,
    size := pitch * height * slices * d.samples * d.bpp / 8, align := al.base,
    pitchAlign := al.pitch, heightAlign := al.height }

end Sys2Proof.Machine
end

