-- ==== Sys2Proof/Machine/Layout.lean ====
section
/-! DEFINITION. The surface-layout calculator: CALC (rules R100, R101, R103, R110 to R118, R121) and GEOM (rule R120).
The planar split of the source's step 6 never applies (rule R118), so there is nothing of it here. -/

namespace Sys2Proof.Machine

/-- Clear SWIZZLE bits 23:16 (rules R103, R110, R111, R115). -/
def clearDegrade (sw : Word) : Word := sw &&& ~~~0x00FF0000#32

/-- `InitSwizzle(sw, m)` (rule R103): clear bits 23:16, and put the macro-tile marker into bits 19:16 of a macro mode. -/
def initSwizzle (P : LayoutParams) (sw : Word) (m : TileMode) : Word :=
  if m.isMacro then clearDegrade sw ||| (P.marker.setWidth 32 <<< 16) else clearDegrade sw

/-- The degrade stamp (rule R115): clear bits 23:16 and write the level at bit 16. -/
def stampDegrade (sw : Word) (L : Nat) : Word := clearDegrade sw ||| BitVec.ofNat 32 (L <<< 16)

/-- CALC's checks in their order (rule R101): the error of the first that fails. -/
def Descriptor.calcCheck (d : Descriptor) : Option ErrCode :=
  if 0x4000 ≤ d.width.toNat ∨ 0x4000 ≤ d.height.toNat ∨ (d.dimension = .d3 ∧ 0x4000 ≤ d.depth.toNat) then
    some .imageTooBig
  else if d.bpp = 0 then some .formatNotSupported
  else if d.requestedMode.isAssigned = false then some .tileModeNotSupported
  else none

/-- The mode request is `default` (rule R100, step 1). -/
def Descriptor.isAuto (d : Descriptor) : Bool := d.requestedMode == .default

/-- The tile mode with which CALC starts (rule R100, step 1). -/
def Descriptor.startMode (d : Descriptor) : TileMode := if d.isAuto then d.defaultMode else d.requestedMode

/-- What CALC carries through its work on level 0: the mode, the geometry of level 0, and the swizzle word. -/
structure LevelZero where
  mode : TileMode
  geom : Geom
  swizzle : Word
  deriving DecidableEq, Repr

/-- Level 0, first adjustment (rule R110): an auto-chosen mode gives way to the mode that the geometry reports. -/
def Descriptor.adjustZero (P : LayoutParams) (d : Descriptor) (m : TileMode) (sw : Word) : LevelZero :=
  let g := d.levelGeom P m 0
  if d.isAuto ∧ g.mode ≠ m then
    { mode := g.mode, geom := d.levelGeom P g.mode 0, swizzle := if g.mode.isMacro then sw else clearDegrade sw }
  else { mode := m, geom := g, swizzle := sw }

/-- Level 0, the fallback of an auto-chosen mode to 1D-thin or 1D-thick (rule R111). -/
def Descriptor.fallbackZero (P : LayoutParams) (d : Descriptor) (z : LevelZero) : LevelZero :=
  if d.isAuto ∧ P.fallback (d.elemWidth 0) (d.elemHeight 0) z.geom then
    let m := if z.mode.isThick then .thick1D else .thin1D
    { mode := m, geom := d.levelGeom P m 0, swizzle := clearDegrade z.swizzle }
  else z

/-- `Level0` of rule R100: the final mode, geometry and swizzle word of level 0 (rules R110 to R112). -/
def Descriptor.levelZero (P : LayoutParams) (d : Descriptor) : LevelZero :=
  d.fallbackZero P (d.adjustZero P d.startMode (initSwizzle P d.swizzle d.startMode))

/-- The accumulator of the mip walk (rule R113): the tracked tile mode, the offset and size of the level before, the
swizzle word, and the offsets and sizes of levels 1, 2, … so far. -/
structure Walk where
  cur : TileMode
  prevOff : Nat
  prevSize : Nat
  swizzle : Word
  offsets : List Nat
  sizes : List Nat
  deriving DecidableEq, Repr

/-- The walk before level 1 (rule R113). -/
def Walk.start (m : TileMode) (sw : Word) : Walk :=
  { cur := m, prevOff := 0, prevSize := 0, swizzle := sw, offsets := [], sizes := [] }

/-- Level `L` is where macro-tiling degrades (rules R113, R115). -/
def Walk.degradesAt (w : Walk) (g : Geom) : Bool := w.cur.isMacro && !g.mode.isMacro

/-- The swizzle word after level `L` (rule R115). -/
def Walk.swizzleAt (w : Walk) (g : Geom) (L : Nat) : Word :=
  if w.degradesAt g then stampDegrade w.swizzle L else w.swizzle

/-- The carry at level `L`: the low 16 bits of the stamped swizzle word where a level above 1 degrades (rule R115). -/
def Walk.carryAt (w : Walk) (g : Geom) (L : Nat) : Nat :=
  if w.degradesAt g ∧ 1 < L then (stampDegrade w.swizzle L).toNat &&& 0xFFFF else 0

/-- The offset of level `L`: the running total, the carry, and the pad to the level's base alignment (rule R116). -/
def Walk.offsetAt (w : Walk) (g : Geom) (L : Nat) : Nat :=
  let run := if L = 1 then 0 else w.prevOff + w.prevSize
  run + w.carryAt g L + (g.align - run % g.align) % g.align

/-- One level of the mip walk, given the geometry of the level (rule R113). -/
def Walk.step (w : Walk) (g : Geom) (L : Nat) : Walk :=
  { cur := if w.degradesAt g then g.mode else w.cur
    prevOff := w.offsetAt g L
    prevSize := g.size
    swizzle := w.swizzleAt g L
    offsets := w.offsets ++ [w.offsetAt g L]
    sizes := w.sizes ++ [g.size] }

/-- `MipWalk(m, n, sw)`: the fold over levels 1 to n - 1 (rules R113, R114). -/
def Descriptor.mipWalk (P : LayoutParams) (d : Descriptor) (m : TileMode) (sw : Word) (n : Nat) : Walk :=
  (List.range' 1 (n - 1)).foldl (fun w L => w.step (d.levelGeom P m L) L) (Walk.start m sw)

/-- What CALC computes, before any register is written (rules R100, R112, R116, R117). -/
structure LayoutResult where
  mode : TileMode
  levels : Nat
  swizzle : Word
  zero : Geom
  offsets : List Nat
  sizes : List Nat
  mipmapSize : Nat
  deriving DecidableEq, Repr

/-- The layout computation of rule R100 on a descriptor that has passed the checks. A pure function of the descriptor
(rule R114). -/
def Descriptor.layoutResult (P : LayoutParams) (d : Descriptor) : LayoutResult :=
  let z := d.levelZero P
  let w := d.mipWalk P z.mode z.swizzle d.mipCount
  { mode := z.mode, levels := d.mipCount, swizzle := w.swizzle, zero := z.geom, offsets := w.offsets,
    sizes := w.sizes, mipmapSize := if 1 < d.mipCount then w.prevOff + w.prevSize else 0 }

/-- The bound check (rule R121): every value that CALC would write, and every level size, is below 2^32. -/
def LayoutResult.fits (r : LayoutResult) : Bool :=
  decide (r.zero.size < 2 ^ 32 ∧ r.zero.align < 2 ^ 32 ∧ r.zero.pitch < 2 ^ 32 ∧ r.mipmapSize < 2 ^ 32)
    && r.offsets.all (· < 2 ^ 32) && r.sizes.all (· < 2 ^ 32)

/-- CALC without its register writes: the checks, the computation, the bound check (rules R100, R101, R121). -/
def Descriptor.calculate (P : LayoutParams) (d : Descriptor) : Except ErrCode LayoutResult :=
  match d.calcCheck with
  | some e => .error e
  | none => if (d.layoutResult P).fits then .ok (d.layoutResult P) else .error .imageTooBig

/-- The three descriptor registers that a successful CALC rewrites (rules R100, R256). -/
def LayoutResult.newDesc (r : LayoutResult) (d : Descriptor) : Descriptor :=
  { d with tileMode := r.mode.code, mipLevels := BitVec.ofNat 32 r.levels, swizzle := r.swizzle }

/-- The computed layout registers that a successful CALC writes (rules R100, R112, R116, R117): MIP_OFFSET[i] is the
offset of level i + 1, and 0 from entry MIP_LEVELS - 1 on (rule R33). -/
def LayoutResult.regs (r : LayoutResult) : LayoutRegs :=
  { imageSize := BitVec.ofNat 32 r.zero.size
    mipmapSize := BitVec.ofNat 32 r.mipmapSize
    alignment := BitVec.ofNat 32 r.zero.align
    pitch := BitVec.ofNat 32 r.zero.pitch
    mipOffset := Vector.ofFn fun i => BitVec.ofNat 32 (r.offsets.getD i.val 0) }

/-- All that a successful CALC writes but STATUS.ERR (rules R41, R100). -/
def State.writeLayout (s : State) (r : LayoutResult) : State :=
  { s with desc := r.newDesc s.desc, layout := r.regs, layoutValid := true }

/-- CALC (rule R100). -/
def execCalc (s : State) : Host.Outcome State Fault Refusal :=
  match s.desc.calculate specParams with
  | .error e => .next (s.raiseCalc e)
  | .ok r => .next (s.writeLayout r).succeed

/-- The opening of GEOM and of XLATE (rules R120, R150, R225): the layout must be valid and the level must exist. It
answers the geometry of level XL_LEVEL (rule R122). -/
def State.selectLevel (s : State) : Except ErrCode Geom :=
  if s.layoutValid = false then .error .layoutNotValid
  else if s.desc.mipLevels.toNat ≤ s.xl.level.toNat then .error .coordOutOfRange
  else .ok (s.desc.levelGeom specParams s.desc.requestedMode s.xl.level.toNat)

/-- The values of the LV_* registers for a level geometry (rules R36, R120). -/
def Geom.regs (g : Geom) : LevelRegs :=
  { tileMode := g.mode.code
    pitch := BitVec.ofNat 32 g.pitch
    height := BitVec.ofNat 32 g.height
    slices := BitVec.ofNat 32 g.slices
    size := BitVec.ofNat 32 g.size
    align := BitVec.ofNat 32 g.align }

/-- GEOM and XLATE write the LV_* registers (rules R36, R120, R150). -/
def State.writeLevel (s : State) (g : Geom) : State := { s with lv := Geom.regs g }

/-- GEOM (rule R120). -/
def execGeom (s : State) : Host.Outcome State Fault Refusal :=
  match s.selectLevel with
  | .error e => .next (s.raise e)
  | .ok g => .next (s.writeLevel g).succeed

end Sys2Proof.Machine
end

