-- ==== Sys2Proof/Machine/Translate.lean ====
section
/-! DEFINITION. The tiled-address translator: XLATE and its three address formulas (rules R140, R141, R150 to R158). -/

namespace Sys2Proof.Machine

/-- `PixelIndex(x, y, bytes)`: the index of element (x, y) inside its 8 × 8 micro-tile (rule R141). -/
def pixelIndex (x y bytes : Nat) : Nat :=
  let mask := 16 / bytes - 1
  let temp := ((y &&& 6) <<< 2) ||| (x &&& 7)
  (temp &&& mask) ||| (clearBits temp mask <<< 1) ||| ((y &&& 1) * (mask + 1))

/-- `LinearOffset`, mode 16 (rule R151). -/
def linearOffset (g : Geom) (bpp s x y : Nat) : Nat := (x + y * g.pitch + s * g.height * g.pitch) * bpp / 8

/-- The bytes of one padded thin slice (rule R154). -/
def sliceBytes (g : Geom) (bytes : Nat) : Nat := g.pitch * g.height * bytes

/-- `MicroOffset`, modes 2 and 3 (rule R152). -/
def microOffset (g : Geom) (bytes s x y : Nat) : Nat :=
  s * sliceBytes g bytes + ((x >>> 3) + (y >>> 3) * (g.pitch / 8)) * (bytes * 64) + pixelIndex x y bytes * bytes

/-- The bank/pipe selector of an element, before the seed (rule R153). -/
def bankPipe (x y : Nat) : Nat :=
  (((y >>> 3) ^^^ (x >>> 3)) &&& 1) ||| (((y >>> 4) ^^^ (x >>> 2)) &&& 2) ||| (((y >>> 2) ^^^ (x >>> 2)) &&& 4)

/-- `combined` of rule R153: the pixel part, and the block and slice part divided by the 8 bank/pipe positions. -/
def macroCombined (g : Geom) (bytes s x y : Nat) : Nat :=
  pixelIndex x y bytes * bytes
    + ((((x >>> 5) + (y >>> 4) * (g.pitch / 32)) * (bytes * 512) + s * sliceBytes g bytes) >>> 3)

/-- `MacroOffset`, mode 4 (rule R153), with the three seed bits of the surface. -/
def macroOffset (g : Geom) (bytes seed s x y : Nat) : Nat :=
  let combined := macroCombined g bytes s x y
  ((bankPipe x y ^^^ seed) <<< 8) ||| (combined &&& 0xFF) ||| (clearBits combined 0xFF <<< 3)

/-- The byte offset of an element of a level (rule R150). `none`: the level's mode has no address formula (rule R156). -/
def Descriptor.elementOffset (d : Descriptor) (g : Geom) (s x y : Nat) : Option Nat :=
  match g.mode with
  | .linearSpecial => some (linearOffset g d.bpp s x y)
  | .thin1D | .thick1D => some (microOffset g d.bytes s x y)
  | .thin2D => some (macroOffset g d.bytes d.seedBits s x y)
  | .default | .linearAligned | .thick2D | .reserved _ => none

/-- An element lies in the padded plane of a level (rule R157). -/
def Geom.inPlane (g : Geom) (s x y : Nat) : Bool := s < g.slices && x < g.pitch && y < g.height

/-- XLATE without its register writes (rules R150, R225): the level, its address formula, and the coordinates. -/
def State.translate (s : State) : Except ErrCode (Geom × Nat) :=
  match s.selectLevel with
  | .error e => .error e
  | .ok g =>
    match s.desc.elementOffset g s.xl.slice.toNat s.xl.x.toNat s.xl.y.toNat with
    | none => .error .tileModeNotSupported
    | some off =>
      if Geom.inPlane g s.xl.slice.toNat s.xl.x.toNat s.xl.y.toNat then .ok (g, off) else .error .coordOutOfRange

/-- XLATE (rule R150). -/
def execXlate (s : State) : Host.Outcome State Fault Refusal :=
  match s.translate with
  | .error e => .next (s.raise e)
  | .ok (g, off) => .next { s.writeLevel g with xlOffset := BitVec.ofNat 32 off }.succeed

end Sys2Proof.Machine
end

