-- ==== Sys2Proof/Machine/Dispatch.lean ====
section
/-! DEFINITION. One arm for each command (rule R71). -/

namespace Sys2Proof.Machine

def exec (i : Instr) (s : State) : Host.Outcome State Fault Refusal :=
  match i with
  | .nop => Sys2Proof.Machine.execNop s
  | .calculate => Sys2Proof.Machine.execCalc s
  | .geom => Sys2Proof.Machine.execGeom s
  | .xlate => Sys2Proof.Machine.execXlate s
  | .bc1 => Sys2Proof.Machine.execBc1 s
  | .bc3 => Sys2Proof.Machine.execBc3 s
  | .bc4 => Sys2Proof.Machine.execBc4 s
  | .bc5 => Sys2Proof.Machine.execBc5 s

end Sys2Proof.Machine
end

