-- ==== Sys2Proof/Machine/Port.lean ====
section
/-! DEFINITION. The register port: how the block serves one event (rules R21, R53 to R57, R70). -/

namespace Sys2Proof.Machine

/-- A write of a word to CMD (rules R21, R70): it runs the command that the word decodes to, and a reserved word raises
BadCommand (rules R79, R220). -/
def runCommandWord (w : Word) (s : State) : Host.Outcome State Fault Refusal :=
  match decode w with
  | some i => exec i s
  | none => .next (s.raise .badCommand)

/-- An aligned 32-bit write at an offset: CMD runs a command, another register takes its write, and a write to an
unmapped word is ignored (rules R20, R21, R54). -/
def writeOffset (offset : BitVec 9) (v : Word) (s : State) : Host.Outcome State Fault Refusal :=
  match Reg.ofOffset offset with
  | some .cmd => runCommandWord v s
  | some r => .next (s.hostWrite v r)
  | none => .next s

/-- The block serves one port event to its end (rules R53, R57, R251). A host access that is not aligned or not 32 bits
wide is refused (BusError, rules R53, R229). -/
def servePort (e : PortEvent) (s : State) : Host.Outcome State Fault Refusal :=
  if e.wellFormed = false then .refused .busError
  else
    match e with
    | .read offset _ => .next { s with readData := some (s.readOffset offset) }
    | .write offset _ v => writeOffset offset v s
    | .reset => .next s.afterReset

end Sys2Proof.Machine
end

