-- ==== Sys2Proof/Machine/Step.lean ====
section
/-! DEFINITION. One step of the machine: the block serves the next event at its port (rule R57). -/

namespace Sys2Proof.Machine

/-- One step: the block takes the first pending event and serves it to its end (rules R57, R201). With nothing pending
it is idle and keeps every register (rule R236). -/
def step (s : State) : Host.Outcome State Fault Refusal :=
  match s.pending with
  | [] => .next s
  | e :: rest => servePort e { s with pending := rest }

/-- The state with one more event at the head of the port: an aligned 32-bit write of the command word to CMD, which the
next step serves (log entry 1). -/
def State.withFetchWord (s : State) (nbits w : Nat) : State :=
  { s with pending := .write Reg.cmd.offset 4 (tableWord nbits w) :: s.pending }

end Sys2Proof.Machine
end

