-- ==== Sys2Proof/Safety.lean ====
section
/-! DEFINITION. What counts as a safe state and a safe run, in the terms that the statements use. -/

namespace Sys2Proof

/-- The ten descriptor registers, whose writes clear LAYOUT_VALID (rules R41, R255). -/
def Reg.isDescriptor : Reg → Bool
  | .dim | .width | .height | .depth | .mipLevels | .format | .aa | .usage | .tileMode | .swizzle => true
  | .cmd | .status | .imageSize | .mipmapSize | .alignment | .pitch | .mipOffset _ | .xlLevel | .xlSlice | .xlX | .xlY
  | .xlOffset | .lvTileMode | .lvPitch | .lvHeight | .lvSlices | .lvSize | .lvAlign | .bcIn _ | .bcOut _ => false

/-- The bits that a host write stores in a register of access RW (rules R20, R23 to R30, R34, R37). `none`: the register
is not RW. -/
def Reg.storedBits : Reg → Option Word
  | .dim => some 0x7
  | .aa => some 0x3
  | .usage => some 0xF
  | .width | .height | .depth | .mipLevels | .format | .tileMode | .swizzle | .xlLevel | .xlSlice | .xlX | .xlY
  | .bcIn _ => some 0xFFFFFFFF
  | .cmd | .status | .imageSize | .mipmapSize | .alignment | .pitch | .mipOffset _ | .xlOffset | .lvTileMode
  | .lvPitch | .lvHeight | .lvSlices | .lvSize | .lvAlign | .bcOut _ => none

namespace Machine

/-- STATUS.ERR holds a code that the block can write: 0, 1, 4, 5, 7, 8 or 9 (rules R80, R222). -/
def State.ErrLegal (s : State) : Prop := s.err ∈ ([0, 1, 4, 5, 7, 8, 9] : List (BitVec 4))

/-- Where LAYOUT_VALID is 1, the layout registers and the three rewritten descriptor registers are what CALC computes
from the descriptor as it stands (rules R41, R119, R122). -/
def State.LayoutCoherent (s : State) : Prop :=
  s.layoutValid = true →
    ∃ r, s.desc.calculate specParams = .ok r ∧ r.newDesc s.desc = s.desc ∧ r.regs = s.layout

/-- The geometry of level XL_LEVEL (rules R109, R120). -/
def State.levelHere (s : State) : Geom :=
  s.desc.levelGeom specParams s.desc.requestedMode s.xl.level.toNat

/-- GEOM and XLATE find a valid layout, and level XL_LEVEL exists (rules R120, R150). -/
def State.LevelReady (s : State) : Prop :=
  s.layoutValid = true ∧ s.xl.level.toNat < s.desc.mipLevels.toNat

/-- The host has only aligned 32-bit accesses (or a reset) waiting at the port (rule R53). -/
def State.PortSafe (s : State) : Prop := ∀ e ∈ s.pending, e.wellFormed = true

/-- A run of any length goes on: no step of it stops. -/
def State.SafeRun (s : State) : Prop := ∀ k, ∃ t, Sys2Proof.core.run k s = .next t

end Machine

end Sys2Proof
end

