-- ==== Sys2Proof/Certificates/Slice0/Obligations.lean ====
section
/-! DEFINITION. The statements for the provers. The first section writes some rules of the spec out in plain natural
numbers, apart from the definitions of the machine, so that a statement can hold the machine against them. -/

namespace Sys2Proof.Rules

open Sys2Proof.Machine

/-- Bit `i` of a number, 0 or 1. -/
def bit (v i : Nat) : Nat := v / 2 ^ i % 2

/-- Byte `b[k]` of BC_IN as a number (rule R37). -/
def inByte (s : State) (k : Nat) : Nat := (s.bcIn.toList.map BitVec.toNat).getD (k / 4) 0 / 256 ^ (k % 4) % 256

/-- The little-endian 16-bit number at byte `k` of BC_IN (rule R171). -/
def inPair (s : State) (k : Nat) : Nat := inByte s k + 256 * inByte s (k + 1)

/-- The little-endian 24-bit number at byte `k` of BC_IN (rule R176). -/
def inTriple (s : State) (k : Nat) : Nat := inByte s k + 256 * inByte s (k + 1) + 65536 * inByte s (k + 2)

/-- Red, green and blue of an R5-G6-B5 endpoint (rule R171). -/
def rgbOf (c : Nat) : List Nat := [c / 2048 % 32 * 8, c / 32 % 64 * 4, c % 32 * 8]

/-- `(a·p + b·q) / n` for each of the three channels (rules R172, R173). -/
def mix (n a b : Nat) (p q : List Nat) : List Nat := List.zipWith (fun u v => (a * u + b * v) / n) p q

/-- The four R, G, B, A entries of the colour palette (rule R173). -/
def colorPalette (c0 c1 : Nat) (forced : Bool) : List (List Nat) :=
  let p := rgbOf c0
  let q := rgbOf c1
  if forced ∨ c0 > c1 then [p ++ [255], q ++ [255], mix 3 2 1 p q ++ [255], mix 3 1 2 p q ++ [255]]
  else [p ++ [255], q ++ [255], mix 2 1 1 p q ++ [255], [0, 0, 0, 0]]

/-- The eight entries of the channel palette (rule R175). -/
def channelPalette (a b : Nat) : List Nat :=
  if a > b then
    [a, b, (6 * a + b) / 7, (5 * a + 2 * b) / 7, (4 * a + 3 * b) / 7, (3 * a + 4 * b) / 7, (2 * a + 5 * b) / 7,
      (a + 6 * b) / 7]
  else [a, b, (4 * a + b) / 5, (3 * a + 2 * b) / 5, (2 * a + 3 * b) / 5, (a + 4 * b) / 5, 0, 255]

/-- Channel `ch` (0 R, 1 G, 2 B, 3 A) of texel `k` of the colour block at byte `base` of BC_IN (rules R173, R174). -/
def colorChannel (s : State) (base : Nat) (forced : Bool) (k ch : Nat) : Nat :=
  ((colorPalette (inPair s base) (inPair s (base + 2)) forced).getD
    (inByte s (base + 4 + k / 4) / 4 ^ (k % 4) % 4) []).getD ch 0

/-- The value of texel `k` of the channel block at byte `base` of BC_IN (rules R175, R176). -/
def channelAt (s : State) (base k : Nat) : Nat :=
  (channelPalette (inByte s base) (inByte s (base + 1))).getD
    (if k < 8 then inTriple s (base + 2) / 8 ^ k % 8 else inTriple s (base + 5) / 8 ^ (k - 8) % 8) 0

/-- The register value of a texel (rules R38, R170). -/
def packed (r g b a : Nat) : Nat := r + 2 ^ 8 * g + 2 ^ 16 * b + 2 ^ 24 * a

/-- `PixelIndex` by the table of rule R142: the index bits, bit 0 first. -/
def pixelBits (x y bytes : Nat) : List Nat :=
  match bytes with
  | 1 => [bit x 0, bit x 1, bit x 2, bit y 1, bit y 0, bit y 2]
  | 2 => [bit x 0, bit x 1, bit x 2, bit y 0, bit y 1, bit y 2]
  | 4 => [bit x 0, bit x 1, bit y 0, bit x 2, bit y 1, bit y 2]
  | 8 => [bit x 0, bit y 0, bit x 1, bit x 2, bit y 1, bit y 2]
  | _ => [bit y 0, bit x 0, bit x 1, bit x 2, bit y 1, bit y 2]

/-- The number with the given bits, bit 0 first. -/
def ofBits (bs : List Nat) : Nat := bs.foldr (fun b acc => b + 2 * acc) 0

/-- The bank/pipe value of an element, seed included (rule R153): y3 ⊕ x3, y5 ⊕ x3, y4 ⊕ x4, each with its seed bit. -/
def bankPipeBits (x y swizzle : Nat) : List Nat :=
  [(bit y 3 + bit x 3 + bit swizzle 8) % 2, (bit y 5 + bit x 3 + bit swizzle 9) % 2,
    (bit y 4 + bit x 4 + bit swizzle 10) % 2]

/-- `combined` of rule R153, in plain arithmetic. -/
def combined (pitch height bytes s x y : Nat) : Nat :=
  ofBits (pixelBits x y bytes) * bytes
    + ((x / 32 + y / 16 * (pitch / 32)) * (bytes * 512) + s * (pitch * height * bytes)) / 8

/-- The extents are too big for CALC (rule R101, first check; DIM = 6 is 3D). -/
def tooBig (d : Descriptor) : Prop :=
  0x4000 ≤ d.width.toNat ∨ 0x4000 ≤ d.height.toNat ∨ (d.dim = 6 ∧ 0x4000 ≤ d.depth.toNat)

/-- FORMAT[5:0] is one of the seven supported codes (rules R39, R40). -/
def supported (d : Descriptor) : Prop := d.format.toNat % 64 ∈ [0x07, 0x08, 0x1A, 0x31, 0x33, 0x34, 0x35]

/-- FORMAT[5:0] is the code of one of the four block-compressed formats (rule R39). -/
abbrev blockCode (d : Descriptor) : Prop := d.format.toNat % 64 ∈ [0x31, 0x33, 0x34, 0x35]

/-- TILE_MODE is one of the seven codes that CALC accepts (rule R101, third check). -/
def modeAssigned (d : Descriptor) : Prop := d.tileMode.toNat ∈ [0, 1, 2, 3, 4, 7, 16]

/-- CALC's checks of rule R101 pass. -/
def checked (d : Descriptor) : Prop := ¬ tooBig d ∧ supported d ∧ modeAssigned d

/-- Every value that CALC would write, and every level size, is below 2^32 (rule R121). -/
def bounded (r : LayoutResult) : Prop :=
  r.zero.size < 2 ^ 32 ∧ r.zero.align < 2 ^ 32 ∧ r.zero.pitch < 2 ^ 32 ∧ r.mipmapSize < 2 ^ 32 ∧
    (∀ o ∈ r.offsets, o < 2 ^ 32) ∧ ∀ z ∈ r.sizes, z < 2 ^ 32

/-- The tile mode of level `L` of a surface whose level-0 mode is `m`, with the spec's default parameters. -/
def modeAt (d : Descriptor) (m : TileMode) (L : Nat) : TileMode := (d.levelGeom specParams m L).mode

/-- Level `L ≥ 1` is the level at which macro-tiling degrades (rules R107, R113). -/
def degradesAt (d : Descriptor) (m : TileMode) (L : Nat) : Prop :=
  m.isMacro = true ∧ (modeAt d m L).isMacro = false ∧ (L = 1 ∨ (modeAt d m (L - 1)).isMacro = true)

/-- `NextPow2(v) < n`: some power of two that is at least `v` is below `n` (rule R6). -/
def nextPow2Below (v n : Nat) : Prop := ∃ k, v ≤ 2 ^ k ∧ 2 ^ k < n

/-- Level `L` is smaller than a 32 × 16 block in one of its extents (rule R107). -/
def smallerThanBlock (d : Descriptor) (L : Nat) : Prop :=
  nextPow2Below (d.elemWidth L) 32 ∨ nextPow2Below (d.elemHeight L) 16

/-- Level `L` has too few slices for a thick mode (rule R107). -/
def tooFewSlices (d : Descriptor) (L : Nat) : Prop := nextPow2Below (d.levelSlices L) 4

/-- The byte offset of a register, as the table of rule R20 writes it. -/
def tableOffset : Reg → Nat
  | .cmd => 0x000
  | .status => 0x004
  | .dim => 0x010
  | .width => 0x014
  | .height => 0x018
  | .depth => 0x01C
  | .mipLevels => 0x020
  | .format => 0x024
  | .aa => 0x028
  | .usage => 0x02C
  | .tileMode => 0x030
  | .swizzle => 0x034
  | .imageSize => 0x038
  | .mipmapSize => 0x03C
  | .alignment => 0x040
  | .pitch => 0x044
  | .mipOffset i => 0x048 + 4 * i.val
  | .xlLevel => 0x080
  | .xlSlice => 0x084
  | .xlX => 0x088
  | .xlY => 0x08C
  | .xlOffset => 0x090
  | .lvTileMode => 0x094
  | .lvPitch => 0x098
  | .lvHeight => 0x09C
  | .lvSlices => 0x0A0
  | .lvSize => 0x0A4
  | .lvAlign => 0x0A8
  | .bcIn j => 0x0C0 + 4 * j.val
  | .bcOut k => 0x0D0 + 4 * k.val

/-- The LV_* registers hold exactly the geometry `g` (rule R36). -/
def levelWritten (t : State) (g : Geom) : Prop :=
  t.lv.tileMode = g.mode.code ∧ t.lv.pitch.toNat = g.pitch ∧ t.lv.height.toNat = g.height ∧
    t.lv.slices.toNat = g.slices ∧ t.lv.size.toNat = g.size ∧ t.lv.align.toNat = g.align

end Sys2Proof.Rules

open Sys2Proof Sys2Proof.Machine Sys2Proof.Rules

/-! ## Encoding and the register port -/

/-- The eight command words of rule R71 decode to their commands: a check of fixed words. -/
def Obligations.CommandWordsDecode : Prop :=
  decode 0x00000000 = some .nop ∧ decode 0x00000001 = some .calculate ∧ decode 0x00000002 = some .geom ∧
    decode 0x00000003 = some .xlate ∧ decode 0x00000031 = some .bc1 ∧ decode 0x00000033 = some .bc3 ∧
    decode 0x00000034 = some .bc4 ∧ decode 0x00000035 = some .bc5

/-- Decode and encode agree in both directions, so no second word decodes to a command (rules R70, R71, R79). -/
def Obligations.DecodeIffEncode : Prop := ∀ (w : Word) (i : Instr), decode w = some i ↔ w = encode i

/-- A write to CMD of any other word raises BadCommand and changes nothing else (rule R79). -/
def Obligations.ReservedWordRaisesBadCommand : Prop :=
  ∀ (s : State) (w : Word), w.toNat ∉ [0x00, 0x01, 0x02, 0x03, 0x31, 0x33, 0x34, 0x35] →
    servePort (.write 0x000 4 w) s = .next { s with err := 8 }

/-- When the next event at the port is an aligned 32-bit write of a command's word to CMD, a step runs that command on
the state without that event, and leaves the rest of the port as it was. The queue of events and the field for what the
last read returned are the model's own (log entries 1 and 2). -/
def Obligations.StepRunsTheDecodedCommand : Prop :=
  ∀ (s : State) (w : Word) (i : Instr) (rest : List PortEvent),
    s.pending = .write 0x000 4 w :: rest → decode w = some i →
      step s = exec i { s with pending := rest } ∧
        ∀ t, step s = .next t → t.pending = rest ∧ t.readData = s.readData

/-- No command reads what waits at the port or what the last read returned: with other values there, it does the same to
all the rest and leaves those values (rule R57; the two fields are the model's own, log entries 1 and 2). -/
def Obligations.CommandsIgnoreThePort : Prop :=
  ∀ (i : Instr) (s t : State) (p : List PortEvent) (v : Option Word), exec i s = .next t →
    exec i { s with pending := p, readData := v } = .next { t with pending := p, readData := v }

/-- The events are served one at a time in order, each to its end, and serving one takes no other away (rule R57; the
queue is the model's own, log entry 1). With none the block is idle and keeps everything (rule R236, log entry 3). That
the reset input too leaves the events that wait is the model's choice and no rule of the spec (log entry 13). -/
def Obligations.StepServesTheNextEvent : Prop :=
  (∀ s : State, s.pending = [] → step s = .next s) ∧
    (∀ (s : State) (e : PortEvent) (rest : List PortEvent), s.pending = e :: rest →
      step s = servePort e { s with pending := rest }) ∧
    ∀ (s t : State) (e : PortEvent), servePort e s = .next t → t.pending = s.pending

/-- An access of another width or at an offset that is no multiple of 4 is refused (rule R53; the refusal's form is log
entry 4). Every aligned 32-bit access has a next state: that no other stop exists is deduced from what the spec says of
unmapped words, of commands that run to their end, and of errors that only write STATUS (rules R54, R57, R223; log
entry 18). -/
def Obligations.OnlyMisshapenAccessesAreRefused : Prop :=
  ∀ (s : State) (offset : BitVec 9) (width : Nat) (v : Word),
    (width ≠ 4 ∨ offset.toNat % 4 ≠ 0 →
      servePort (.read offset width) s = .refused .busError ∧
        servePort (.write offset width v) s = .refused .busError) ∧
    (width = 4 ∧ offset.toNat % 4 = 0 →
      (∃ t, servePort (.read offset width) s = .next t) ∧ ∃ t, servePort (.write offset width v) s = .next t)

/-- A host that makes only aligned 32-bit accesses never stops the block, however long it runs (rules R53, R57, R223).
What waits at the port is the model's own queue (log entry 1), and a run longer than the queue goes on by the model's
idle step, deduced from the idle block that keeps its registers (rule R236, log entry 3). -/
def Obligations.SafePortRunsForever : Prop := ∀ s : State, s.PortSafe → s.SafeRun

/-- An aligned read of a word with no register returns 0, and an aligned write to one is ignored (rule R54). That the
model holds what a read returns, in the field `readData`, is its own choice (log entry 2). -/
def Obligations.UnmappedOffsets : Prop :=
  ∀ (s : State) (offset : BitVec 9) (v : Word), offset.toNat % 4 = 0 → (∀ r : Reg, r.offset ≠ offset) →
    servePort (.read offset 4) s = .next { s with readData := some 0 } ∧
      servePort (.write offset 4 v) s = .next s

/-- A read returns the register's value to the host and changes no state of the block (rule R45). Each register of rule
R20 reads the field of the state that bears its name, DIM, AA and USE zero-extended and STATUS as its two fields; CMD
reads 0 (rules R21 to R38). That the model holds what a read returns, in the field `readData`, is its own choice (log
entry 2). -/
def Obligations.ReadsHaveNoSideEffects : Prop :=
  ∀ s : State,
    (∀ r : Reg, servePort (readEvent r) s = .next { s with readData := some (s.readReg r) }) ∧
    s.readReg .cmd = 0 ∧
    (s.readReg .status).toNat = s.err.toNat + 16 * s.layoutValid.toNat ∧
    (s.readReg .dim).toNat = s.desc.dim.toNat ∧
    s.readReg .width = s.desc.width ∧
    s.readReg .height = s.desc.height ∧
    s.readReg .depth = s.desc.depth ∧
    s.readReg .mipLevels = s.desc.mipLevels ∧
    s.readReg .format = s.desc.format ∧
    (s.readReg .aa).toNat = s.desc.aa.toNat ∧
    (s.readReg .usage).toNat = s.desc.usage.toNat ∧
    s.readReg .tileMode = s.desc.tileMode ∧
    s.readReg .swizzle = s.desc.swizzle ∧
    s.readReg .imageSize = s.layout.imageSize ∧
    s.readReg .mipmapSize = s.layout.mipmapSize ∧
    s.readReg .alignment = s.layout.alignment ∧
    s.readReg .pitch = s.layout.pitch ∧
    (∀ i : Fin 13, s.readReg (.mipOffset i) = s.layout.mipOffset.get i) ∧
    s.readReg .xlLevel = s.xl.level ∧
    s.readReg .xlSlice = s.xl.slice ∧
    s.readReg .xlX = s.xl.x ∧
    s.readReg .xlY = s.xl.y ∧
    s.readReg .xlOffset = s.xlOffset ∧
    s.readReg .lvTileMode = s.lv.tileMode ∧
    s.readReg .lvPitch = s.lv.pitch ∧
    s.readReg .lvHeight = s.lv.height ∧
    s.readReg .lvSlices = s.lv.slices ∧
    s.readReg .lvSize = s.lv.size ∧
    s.readReg .lvAlign = s.lv.align ∧
    (∀ j : Fin 4, s.readReg (.bcIn j) = s.bcIn.get j) ∧
    ∀ k : Fin 16, s.readReg (.bcOut k) = s.bcOut.get k

/-- STATUS reads ERR in bits 3:0, LAYOUT_VALID in bit 4 and 0 above (rule R22). -/
def Obligations.StatusWordFields : Prop :=
  ∀ s : State, (s.readReg .status).toNat = s.err.toNat + 16 * s.layoutValid.toNat

/-- Every register, of whatever access, stands at its offset of the table of rule R20. A host write to a register of
access RW stores the bits the register has; every other register but STATUS reads as before, and ERR stays (rules R20,
R23 to R30, R34, R37). That `pending` and `readData` stay as well is about the model's own fields (log entries 1
and 2). -/
def Obligations.HostWriteStoresItsRegisterOnly : Prop :=
  (∀ r : Reg, r.offset.toNat = tableOffset r) ∧
    ∀ (s : State) (r : Reg) (m v : Word), r.storedBits = some m →
      ∃ t, servePort (.write r.offset 4 v) s = .next t ∧ t.readReg r = v &&& m ∧
        (∀ r', r' ≠ r → r' ≠ .status → t.readReg r' = s.readReg r') ∧
        t.err = s.err ∧ t.pending = s.pending ∧ t.readData = s.readData

/-- A host write to a register of access R is ignored (rule R20). CMD is the one register of access W. -/
def Obligations.HostWriteToReadOnlyIsIgnored : Prop :=
  ∀ (s : State) (r : Reg) (v : Word), r.storedBits = none → r ≠ .cmd →
    servePort (.write r.offset 4 v) s = .next s

/-- A write to a descriptor register clears LAYOUT_VALID, whatever the value, and leaves the results of the old layout
(rule R255). -/
def Obligations.DescriptorWriteLeavesStaleResults : Prop :=
  ∀ (s : State) (r : Reg) (v : Word), r.isDescriptor = true →
    ∃ t, servePort (.write r.offset 4 v) s = .next t ∧
      t = { s with desc := t.desc, layoutValid := false } ∧
      exec .geom t = .next { t with err := 9 } ∧ exec .xlate t = .next { t with err := 9 }

/-- The events that write LAYOUT_VALID: CALC sets it when it succeeds and clears it when it fails, a descriptor write and
reset clear it, and no other event changes it (rule R41). -/
def Obligations.LayoutValidWriters : Prop :=
  ∀ (s t : State) (e : PortEvent), servePort e s = .next t →
    (e = .write 0x000 4 0x00000001 → t.layoutValid = decide (t.err = 0)) ∧
    ((∃ (r : Reg) (v : Word), r.isDescriptor = true ∧ e = .write r.offset 4 v) → t.layoutValid = false) ∧
    (e = .reset → t.layoutValid = false) ∧
    (e ≠ .write 0x000 4 0x00000001 → (∀ (r : Reg) (v : Word), r.isDescriptor = true → e ≠ .write r.offset 4 v) →
      e ≠ .reset → t.layoutValid = s.layoutValid)

/-- Repeating a write with no access between leaves the same state, CMD writes included. The spec infers this itself in
R56, from the second CALC of rule R119 and from rule R81. -/
def Obligations.EveryWriteIsIdempotent : Prop :=
  ∀ (s t : State) (offset : BitVec 9) (width : Nat) (v : Word),
    servePort (.write offset width v) s = .next t → servePort (.write offset width v) t = .next t

/-- A platform address in the 512 bytes at `base` selects its offset, and any other address does not reach the block
(rule R51; that such an address is no event of the block is the model's reading, log entry 8). -/
def Obligations.BlockWindow : Prop :=
  ∀ base addr : Nat,
    (base ≤ addr ∧ addr < base + 512 → ∃ o, blockOffset base addr = some o ∧ base + o.toNat = addr) ∧
      (¬ (base ≤ addr ∧ addr < base + 512) → blockOffset base addr = none)

/-- Each host-program line stands for aligned 32-bit accesses, in order, with every value below 2^32 whole: `wr` and `rd` with
the offset of the register, and `cmd`, `xlate`, `geom`, `bcin` and `check` as they expand, with the offsets of the table
of rule R20 (rules R83, R84). -/
def Obligations.HostLinesEncode : Prop :=
  (∀ (l : HostLine) (e : PortEvent), e ∈ l.encode → e.wellFormed = true ∧ e ≠ .reset) ∧
  (∀ (r : Reg) (v : Nat), v < 2 ^ 32 →
    ∃ w : Word, (HostLine.wr r v).encode = [.write r.offset 4 w] ∧ w.toNat = v) ∧
  (∀ r : Reg, r.offset.toNat = tableOffset r ∧ (HostLine.rd r).encode = [.read r.offset 4]) ∧
  (∀ i : Instr, (HostLine.cmd i).encode = [.write 0x000 4 (encode i)]) ∧
  (∀ l s x y : Word,
    (HostLine.xlate l.toNat s.toNat x.toNat y.toNat).encode =
      [.write 0x080 4 l, .write 0x084 4 s, .write 0x088 4 x, .write 0x08C 4 y, .write 0x000 4 0x00000003,
        .read 0x090 4]) ∧
  (∀ l : Word, (HostLine.geom l.toNat).encode = [.write 0x080 4 l, .write 0x000 4 0x00000002]) ∧
  (∀ w0 w1 w2 w3 : Word,
    (HostLine.bcin w0.toNat w1.toNat w2.toNat w3.toNat).encode =
      [.write 0x0C0 4 w0, .write 0x0C4 4 w1, .write 0x0C8 4 w2, .write 0x0CC 4 w3]) ∧
  HostLine.check.encode = [.read 0x004 4]

/-! ## Reset -/

/-- After the reset input every register reads 0 and LAYOUT_VALID is 0, whatever the state before (rule R252). -/
def Obligations.NothingSurvivesReset : Prop :=
  ∀ s : State, ∃ t, servePort .reset s = .next t ∧ (∀ r : Reg, t.readReg r = 0) ∧ t.err = 0 ∧ t.layoutValid = false

/-- The state after reset: every register reads 0 and LAYOUT_VALID is 0, so a CALC right after reset raises
FormatNotSupported (rule R250). -/
def Obligations.ResetState : Prop :=
  (∀ r : Reg, State.reset.readReg r = 0) ∧ State.reset.layoutValid = false ∧ exec .calculate State.reset = .next { State.reset with err := 4 }

/-! ## Errors -/

/-- NOP sets ERR to OK and changes nothing else (rule R200). -/
def Obligations.NopSetsErrToOk : Prop := ∀ s : State, exec .nop s = .next { s with err := 0 }

/-- The result codes that each command can leave in ERR (rule R222). -/
def Obligations.ErrorsOfEachCommand : Prop :=
  ∀ (i : Instr) (s t : State), exec i s = .next t →
    t.err ∈ (match i with
      | .calculate => [0, 1, 4, 5]
      | .geom => [0, 7, 9]
      | .xlate => [0, 5, 7, 9]
      | .nop | .bc1 | .bc3 | .bc4 | .bc5 => [0] : List (BitVec 4))

/-- A command that raises an error writes STATUS only: ERR, and LAYOUT_VALID to 0 when it is CALC (rule R223). -/
def Obligations.FailingCommandWritesStatusOnly : Prop :=
  ∀ (i : Instr) (s t : State), exec i s = .next t → t.err ≠ 0 →
    t = { s with err := t.err, layoutValid := if i = .calculate then false else s.layoutValid }

/-- GEOM and XLATE without a valid layout raise LayoutNotValid and change nothing else (rule R221). -/
def Obligations.LayoutNotValidStops : Prop :=
  ∀ s : State, s.layoutValid = false →
    exec .geom s = .next { s with err := 9 } ∧ exec .xlate s = .next { s with err := 9 }

/-- With a valid layout, a level at or above MIP_LEVELS raises CoordOutOfRange in GEOM and XLATE, before any other check
(rules R120, R150, R225). -/
def Obligations.MissingLevelStops : Prop :=
  ∀ s : State, s.layoutValid = true → s.desc.mipLevels.toNat ≤ s.xl.level.toNat →
    exec .geom s = .next { s with err := 7 } ∧ exec .xlate s = .next { s with err := 7 }

/-! ## Invariants -/

/-- The reset state meets the invariant of `StepKeepsTheInvariant`. -/
def Obligations.ResetMeetsTheInvariant : Prop := State.reset.ErrLegal ∧ State.reset.LayoutCoherent

/-- Every step keeps the invariant: ERR holds a code that the block can write (rule R222), and where LAYOUT_VALID is 1
the computed registers are what CALC computes from the descriptor as it stands (rules R41, R119, R122). -/
def Obligations.StepKeepsTheInvariant : Prop :=
  ∀ s t : State, s.ErrLegal ∧ s.LayoutCoherent → step s = .next t → t.ErrLegal ∧ t.LayoutCoherent

/-- What a valid layout means for GEOM and XLATE: the format is supported, TILE_MODE is concrete, there are 1 to 14
levels, and every level's size is below 2^32. The spec infers each clause itself: in R120 and R150 from LAYOUT_VALID and
from CALC's checks and writes (rules R41, R100, R101, R121), and the bound of 14 levels in R104 from R101. -/
def Obligations.ValidLayoutIsUsable : Prop :=
  ∀ s : State, s.LayoutCoherent → s.layoutValid = true →
    supported s.desc ∧ s.desc.tileMode.toNat ∈ [1, 2, 3, 4, 7, 16] ∧
      1 ≤ s.desc.mipLevels.toNat ∧ s.desc.mipLevels.toNat ≤ 14 ∧
      ∀ L, L < s.desc.mipLevels.toNat → (s.desc.levelGeom specParams s.desc.requestedMode L).size < 2 ^ 32

/-! ## CALC -/

/-- CALC's checks in their order, on the raw registers; a failing check writes ERR and clears LAYOUT_VALID and does
nothing else (rule R101). -/
def Obligations.CalcChecksInOrder : Prop :=
  ∀ s : State,
    (tooBig s.desc → exec .calculate s = .next { s with err := 1, layoutValid := false }) ∧
    (¬ tooBig s.desc → ¬ supported s.desc → exec .calculate s = .next { s with err := 4, layoutValid := false }) ∧
    (¬ tooBig s.desc → supported s.desc → ¬ modeAssigned s.desc →
      exec .calculate s = .next { s with err := 5, layoutValid := false })

/-- CALC raises ImageTooBig and writes no result when a value it would write is 2^32 or more (rule R121). -/
def Obligations.CalcBoundCheck : Prop :=
  ∀ s : State, checked s.desc → ¬ bounded (s.desc.layoutResult specParams) →
    exec .calculate s = .next { s with err := 1, layoutValid := false }

/-- CALC succeeds when the checks pass and every value fits. It writes the computed values exactly, MIP_OFFSET is 0 from
entry MIP_LEVELS - 1 on, and it changes no other register and no other descriptor field (rule R100). -/
def Obligations.CalcWritesTheLayout : Prop :=
  ∀ s : State, checked s.desc → bounded (s.desc.layoutResult specParams) →
    ∃ t, exec .calculate s = .next t ∧
      t = { s with
        err := 0, layoutValid := true, layout := t.layout,
        desc := { s.desc with tileMode := t.desc.tileMode, mipLevels := t.desc.mipLevels, swizzle := t.desc.swizzle } } ∧
      t.desc.tileMode = (s.desc.layoutResult specParams).mode.code ∧
      t.desc.mipLevels.toNat = (s.desc.layoutResult specParams).levels ∧
      t.desc.swizzle = (s.desc.layoutResult specParams).swizzle ∧
      t.layout.imageSize.toNat = (s.desc.layoutResult specParams).zero.size ∧
      t.layout.alignment.toNat = (s.desc.layoutResult specParams).zero.align ∧
      t.layout.pitch.toNat = (s.desc.layoutResult specParams).zero.pitch ∧
      t.layout.mipmapSize.toNat = (s.desc.layoutResult specParams).mipmapSize ∧
      ∀ i : Fin 13, (t.layout.mipOffset.get i).toNat =
        if i.val + 1 < (s.desc.layoutResult specParams).levels then
          (s.desc.layoutResult specParams).offsets.getD i.val 0
        else 0

/-- The tile mode that CALC resolves, on the raw registers: a concrete request stays; the request `default` becomes
linear-aligned, 2D-thick or 2D-thin1, and falls back to 1D-thin (1D-thick for a thick mode) when both element extents
are below the alignments; and the geometry of level 0 is that of the resolved mode (rules R102, R110 to R112). -/
def Obligations.CalcResolvesTheTileMode : Prop :=
  ∀ d : Descriptor,
    (d.tileMode ≠ 0 → (d.layoutResult specParams).mode = d.requestedMode) ∧
    (d.tileMode = 0 → ∀ m : TileMode,
      m = (if d.dim = 0 ∧ d.aa = 0 ∧ d.usage &&& 4 = 0 then .linearAligned
        else if d.dim = 6 ∧ d.usage &&& 2 = 0 then .thick2D else .thin2D) →
      (d.layoutResult specParams).mode =
        if d.elemWidth 0 < (d.levelGeom specParams m 0).pitchAlign ∧
            d.elemHeight 0 < (d.levelGeom specParams m 0).heightAlign then
          (if m = .thick2D then .thick1D else .thin1D)
        else m) ∧
    (d.layoutResult specParams).zero = d.levelGeom specParams (d.layoutResult specParams).mode 0

/-- The number of levels: 1 for a request of 0 or 1, and otherwise the full chain, the least `n ≥ 1` such that every
extent that counts is below 2^n; it is at least 1 where every extent is 0 as well (rule R104). -/
def Obligations.MipCountIsTheFullChain : Prop :=
  ∀ d : Descriptor,
    (d.mipLevels.toNat ≤ 1 → (d.layoutResult specParams).levels = 1) ∧
    1 ≤ (d.layoutResult specParams).levels ∧
    (1 < d.mipLevels.toNat → ∀ n : Nat, 1 ≤ n →
      ((d.layoutResult specParams).levels ≤ n ↔
        d.width.toNat < 2 ^ n ∧ (1 < d.dim.toNat → d.height.toNat < 2 ^ n) ∧ (d.dim = 6 → d.depth.toNat < 2 ^ n)))

/-- The extents of a level: in pixels and slices by the DIM code (rule R105), and in elements, where a block-compressed
format counts 4 × 4 blocks rounded up (rule R106). With them what they and the plane sizes are computed from: bits per
element and block compression of each of the 64 format codes (rule R39), and the sample count of each AA code
(rule R78). -/
def Obligations.LevelExtentsByDimension : Prop :=
  ∀ (d : Descriptor) (L : Nat),
    d.levelWidth L = max (d.width.toNat / 2 ^ L) 1 ∧
    d.levelHeight L = (if d.dim = 0 ∨ d.dim = 1 then 1 else max (d.height.toNat / 2 ^ L) 1) ∧
    d.levelSlices L =
      (if d.dim = 6 then max (d.depth.toNat / 2 ^ L) 1
      else if d.dim = 7 then max d.depth.toNat 6
      else if d.dim = 1 ∨ d.dim = 3 ∨ d.dim = 5 then max d.depth.toNat 1 else 1) ∧
    d.elemWidth L = (if blockCode d then (d.levelWidth L + 3) / 4 else d.levelWidth L) ∧
    d.elemHeight L = (if blockCode d then (d.levelHeight L + 3) / 4 else d.levelHeight L) ∧
    (d.isBc = true ↔ blockCode d) ∧
    d.bpp =
      (if d.format.toNat % 64 ∈ [0x07, 0x08] then 16
      else if d.format.toNat % 64 = 0x1A then 32
      else if d.format.toNat % 64 ∈ [0x31, 0x34] then 64
      else if d.format.toNat % 64 ∈ [0x33, 0x35] then 128 else 0) ∧
    d.samples = (if d.aa = 0 then 1 else if d.aa = 1 then 2 else if d.aa = 2 then 4 else 8)

/-- The alignments of the six concrete modes for the formats of the table, as numbers (rule R108). -/
def Obligations.AlignmentTable : Prop :=
  ∀ bpp ∈ [16, 32, 64, 128], ∀ samples ∈ [1, 2, 4, 8],
    tableAlign .linearSpecial bpp samples = ⟨1, 1, 1, 1⟩ ∧
    tableAlign .linearAligned bpp samples = ⟨if bpp = 16 then 128 else 64, 1, 1, 256⟩ ∧
    tableAlign .thin1D bpp samples = ⟨if bpp = 16 ∧ samples = 1 then 16 else 8, 8, 1, 256⟩ ∧
    tableAlign .thick1D bpp samples = ⟨8, 8, 4, 256⟩ ∧
    tableAlign .thin2D bpp samples =
      (if bpp = 16 ∧ samples = 1 then ⟨64, 16, 1, 2048⟩ else ⟨32, 16, 1, samples * 64 * bpp⟩) ∧
    tableAlign .thick2D bpp samples = ⟨32, 16, 4, samples * 64 * bpp⟩

/-- The geometry of a level in a concrete mode of a supported format: it carries the alignments of its mode, and each padded
extent is the least multiple of its alignment that holds the level (rules R108, R109). The other clauses are the spec's
own inferences: that the size is exact, in R109 from the format table R39; and that a micro-tiled pitch and height are
whole tiles and a macro-tiled plane whole 32 × 16 blocks, in R108 from its table and rules R152 and R153. -/
def Obligations.GeometryIsPadded : Prop :=
  ∀ (d : Descriptor) (m : TileMode) (L : Nat) (g : Geom) (al : Align),
    supported d → m.isConcrete = true → g = d.levelGeom specParams m L → al = tableAlign g.mode d.bpp d.samples →
      (d.elemWidth L ≤ g.pitch ∧ g.pitch < d.elemWidth L + al.pitch ∧ al.pitch ∣ g.pitch) ∧
      (d.elemHeight L ≤ g.height ∧ g.height < d.elemHeight L + al.height ∧ al.height ∣ g.height) ∧
      (d.levelSlices L ≤ g.slices ∧ g.slices < d.levelSlices L + al.slices ∧ al.slices ∣ g.slices) ∧
      8 * g.size = g.pitch * g.height * g.slices * d.samples * d.bpp ∧
      (g.align = al.base ∧ g.pitchAlign = al.pitch ∧ g.heightAlign = al.height) ∧
      (g.mode = .thin1D ∨ g.mode = .thick1D → 8 ∣ g.pitch ∧ 8 ∣ g.height) ∧
      (g.mode = .thin2D ∨ g.mode = .thick2D → 32 ∣ g.pitch ∧ 16 ∣ g.height)

/-- The tile mode of a level of a surface whose level-0 mode is `m`, with the thresholds 32, 16 and 4 as numbers: level 0
has the mode `m`; a later level of 2D-thick becomes thin where it has too few slices and micro-tiled where it is smaller
than a block, one of 2D-thin1 becomes 1D-thin where it is smaller than a block, one of 1D-thick becomes 1D-thin where it
has too few slices; every other mode stays (rule R107). So a level that is not macro-tiled is followed only by levels
that are not macro-tiled (the spec infers this clause itself in R107, from its table and rule R105). -/
def Obligations.MacroTilingNeverReturns : Prop :=
  (∀ (d : Descriptor) (m : TileMode), modeAt d m 0 = m) ∧
  (∀ (d : Descriptor) (L : Nat), 1 ≤ L →
    (tooFewSlices d L → ¬ smallerThanBlock d L → modeAt d .thick2D L = .thin2D) ∧
    (tooFewSlices d L → smallerThanBlock d L → modeAt d .thick2D L = .thin1D) ∧
    (¬ tooFewSlices d L → smallerThanBlock d L → modeAt d .thick2D L = .thick1D) ∧
    (¬ tooFewSlices d L → ¬ smallerThanBlock d L → modeAt d .thick2D L = .thick2D) ∧
    (smallerThanBlock d L → modeAt d .thin2D L = .thin1D) ∧
    (¬ smallerThanBlock d L → modeAt d .thin2D L = .thin2D) ∧
    (tooFewSlices d L → modeAt d .thick1D L = .thin1D) ∧
    (¬ tooFewSlices d L → modeAt d .thick1D L = .thick1D) ∧
    ∀ m : TileMode, m ∉ [.thick2D, .thin2D, .thick1D] → modeAt d m L = m) ∧
  ∀ (d : Descriptor) (m : TileMode) (L L' : Nat), L ≤ L' →
    (modeAt d m L).isMacro = false → (modeAt d m L').isMacro = false

/-- The mip chain: level 1 is at 0; each later level is at the running total, plus the low 16 bits of SWIZZLE where it is
the degrading level, plus the pad to its base alignment; the sizes are those of the levels' geometry; and MIPMAP_SIZE is
the last offset plus the last size (rules R113, R115 to R117, R122). -/
def Obligations.MipChainOffsets : Prop :=
  ∀ (d : Descriptor) (r : LayoutResult), r = d.layoutResult specParams →
    r.offsets.length = r.levels - 1 ∧ r.sizes.length = r.levels - 1 ∧
    (∀ L, 1 ≤ L → L < r.levels → r.sizes.getD (L - 1) 0 = (d.levelGeom specParams r.mode L).size) ∧
    (1 < r.levels → r.offsets.getD 0 0 = 0) ∧
    (∀ L, 2 ≤ L → L < r.levels → ∀ run align carry : Nat,
      run = r.offsets.getD (L - 2) 0 + r.sizes.getD (L - 2) 0 →
      align = (d.levelGeom specParams r.mode L).align →
      (degradesAt d r.mode L → carry = d.swizzle.toNat % 65536) →
      (¬ degradesAt d r.mode L → carry = 0) →
        r.offsets.getD (L - 1) 0 = run + carry + (align - run % align) % align) ∧
    r.mipmapSize =
      if 1 < r.levels then r.offsets.getD (r.levels - 2) 0 + r.sizes.getD (r.levels - 2) 0 else 0

/-- The levels of a mip chain occupy disjoint byte ranges in increasing order, and each of them, the only one of a chain
with one mip level too, ends inside MIPMAP_SIZE bytes. The spec infers this itself in R116, from the walk of rule R113
with the carry of R115; the end of the last level is rule R117. -/
def Obligations.MipLevelsAreDisjoint : Prop :=
  ∀ (d : Descriptor) (r : LayoutResult), r = d.layoutResult specParams →
    (∀ i j : Nat, i < j → j < r.offsets.length →
      r.offsets.getD i 0 + r.sizes.getD i 0 ≤ r.offsets.getD j 0) ∧
    ∀ j : Nat, j < r.offsets.length → r.offsets.getD j 0 + r.sizes.getD j 0 ≤ r.mipmapSize

/-- SWIZZLE after CALC: bits 15:0 and 31:24 stay, and bits 23:16 hold 0 for a surface that is not macro-tiled, the first
degraded level where one degrades, and the marker 13 otherwise (rules R76, R103, R115). -/
def Obligations.SwizzleAfterCalc : Prop :=
  ∀ (d : Descriptor) (r : LayoutResult), ¬ tooBig d → r = d.layoutResult specParams →
    r.swizzle &&& 0xFF00FFFF = d.swizzle &&& 0xFF00FFFF ∧
    (r.mode.isMacro = false → r.swizzle.toNat / 65536 % 256 = 0) ∧
    (∀ L, 1 ≤ L → L < r.levels → degradesAt d r.mode L → r.swizzle.toNat / 65536 % 256 = L) ∧
    (r.mode.isMacro = true → (∀ L, 1 ≤ L → L < r.levels → ¬ degradesAt d r.mode L) →
      r.swizzle.toNat / 65536 % 256 = 13)

/-- No command reads FORMAT[31:6]: with other upper bits it does the same and keeps them (rule R26). -/
def Obligations.FormatUpperBitsAreIgnored : Prop :=
  ∀ (i : Instr) (s t : State) (f : Word), f.toNat % 64 = s.desc.format.toNat % 64 → exec i s = .next t →
    exec i { s with desc := { s.desc with format := f } } = .next { t with desc := { t.desc with format := f } }

/-! ## GEOM -/

/-- GEOM with a valid layout and an existing level writes the level's geometry exactly, sets ERR to OK and changes
nothing else (rule R120). -/
def Obligations.GeomWritesTheLevel : Prop :=
  ∀ s : State, s.LayoutCoherent → s.LevelReady →
    ∃ t, exec .geom s = .next t ∧ t = { s with err := 0, lv := t.lv } ∧ levelWritten t s.levelHere

/-- GEOM at level 0 reproduces TILE_MODE, PITCH, IMAGE_SIZE and ALIGNMENT. The spec infers the last three itself in R120,
from rule R112; that TILE_MODE is reproduced follows from rule R107, by which level 0 keeps its mode. -/
def Obligations.GeomZeroReproducesTheLayout : Prop :=
  ∀ s : State, s.LayoutCoherent → s.LevelReady → s.xl.level = 0 →
    ∃ t, exec .geom s = .next t ∧ t.lv.tileMode = s.desc.tileMode ∧ t.lv.pitch = s.layout.pitch ∧
      t.lv.size = s.layout.imageSize ∧ t.lv.align = s.layout.alignment

/-- GEOM at a level above 0 gives the size that CALC placed: the level's bytes end inside the mipmap buffer. The spec
infers this itself in R122, from rules R100, R112, R117 and R120. -/
def Obligations.GeomLevelFitsTheMipmap : Prop :=
  ∀ (s : State) (i : Fin 13), s.LayoutCoherent → s.LevelReady → s.xl.level.toNat = i.val + 1 →
    ∃ t, exec .geom s = .next t ∧
      (s.layout.mipOffset.get i).toNat + t.lv.size.toNat ≤ s.layout.mipmapSize.toNat

/-! ## XLATE -/

/-- XLATE on a linear-special level (rule R151). -/
def Obligations.XlateLinearSpecial : Prop :=
  ∀ s : State, s.LayoutCoherent → s.LevelReady → s.levelHere.mode = .linearSpecial →
    s.xl.slice.toNat < s.levelHere.slices → s.xl.x.toNat < s.levelHere.pitch → s.xl.y.toNat < s.levelHere.height →
      ∃ t, exec .xlate s = .next t ∧ t = { s with err := 0, lv := t.lv, xlOffset := t.xlOffset } ∧
        levelWritten t s.levelHere ∧
        t.xlOffset.toNat =
          (s.xl.x.toNat + s.xl.y.toNat * s.levelHere.pitch
            + s.xl.slice.toNat * s.levelHere.height * s.levelHere.pitch) * s.desc.bpp / 8

/-- XLATE on a micro-tiled level, 1D-thin or 1D-thick (rules R142, R152, R154). -/
def Obligations.XlateMicroTiled : Prop :=
  ∀ s : State, s.LayoutCoherent → s.LevelReady → s.levelHere.mode = .thin1D ∨ s.levelHere.mode = .thick1D →
    s.xl.slice.toNat < s.levelHere.slices → s.xl.x.toNat < s.levelHere.pitch → s.xl.y.toNat < s.levelHere.height →
      ∃ t, exec .xlate s = .next t ∧ t = { s with err := 0, lv := t.lv, xlOffset := t.xlOffset } ∧
        levelWritten t s.levelHere ∧
        t.xlOffset.toNat =
          s.xl.slice.toNat * (s.levelHere.pitch * s.levelHere.height * (s.desc.bpp / 8))
            + (s.xl.x.toNat / 8 + s.xl.y.toNat / 8 * (s.levelHere.pitch / 8)) * (s.desc.bpp / 8 * 64)
            + ofBits (pixelBits s.xl.x.toNat s.xl.y.toNat (s.desc.bpp / 8)) * (s.desc.bpp / 8)

/-- XLATE on a macro-tiled 2D-thin1 level: the bank/pipe value in bits 10:8, the low byte of `combined` in bits 7:0, and
the rest of `combined` shifted up by 3 (rules R142, R153, R154). -/
def Obligations.XlateMacroTiled : Prop :=
  ∀ (s : State) (c : Nat), s.LayoutCoherent → s.LevelReady → s.levelHere.mode = .thin2D →
    s.xl.slice.toNat < s.levelHere.slices → s.xl.x.toNat < s.levelHere.pitch → s.xl.y.toNat < s.levelHere.height →
    c = combined s.levelHere.pitch s.levelHere.height (s.desc.bpp / 8) s.xl.slice.toNat s.xl.x.toNat s.xl.y.toNat →
      ∃ t, exec .xlate s = .next t ∧ t = { s with err := 0, lv := t.lv, xlOffset := t.xlOffset } ∧
        levelWritten t s.levelHere ∧
        t.xlOffset.toNat =
          256 * ofBits (bankPipeBits s.xl.x.toNat s.xl.y.toNat s.desc.swizzle.toNat) + c % 256 + 2048 * (c / 256)

/-- XLATE on a linear-aligned or 2D-thick level raises TileModeNotSupported, whatever the coordinates (rules R156,
R225). -/
def Obligations.XlateWithoutFormulaStops : Prop :=
  ∀ s : State, s.LevelReady → s.levelHere.mode = .linearAligned ∨ s.levelHere.mode = .thick2D →
    exec .xlate s = .next { s with err := 5 }

/-- XLATE outside the padded plane of a level with an address formula raises CoordOutOfRange (rule R157). -/
def Obligations.XlateOutsideThePlaneStops : Prop :=
  ∀ s : State, s.LevelReady → s.levelHere.mode ∈ [.thin1D, .thick1D, .thin2D, .linearSpecial] →
    s.levelHere.slices ≤ s.xl.slice.toNat ∨ s.levelHere.pitch ≤ s.xl.x.toNat ∨
      s.levelHere.height ≤ s.xl.y.toNat →
    exec .xlate s = .next { s with err := 7 }

/-- Every offset that XLATE computes lies in the level's plane (rule R52), for every sample count. The spec infers this
itself in R155, from the address formulas and the alignments (rules R108, R151 to R154). -/
def Obligations.XlateStaysInThePlane : Prop :=
  ∀ s t : State, s.LayoutCoherent → exec .xlate s = .next t → t.err = 0 →
    t.xlOffset.toNat < t.lv.size.toNat

/-- For every sample count, two elements of a level's padded plane never share an offset. The spec infers this itself in
R155, from the address formulas and the alignments (rules R108, R141, R151 to R154). -/
def Obligations.XlateIsInjective : Prop :=
  ∀ (d : Descriptor) (m : TileMode) (L : Nat) (g : Geom) (s x y s' x' y' off : Nat),
    supported d → g = d.levelGeom specParams m L → g.mode.hasFormula = true →
    s < g.slices → x < g.pitch → y < g.height → s' < g.slices → x' < g.pitch → y' < g.height →
    d.elementOffset g s x y = some off → d.elementOffset g s' x' y' = some off →
      s = s' ∧ x = x' ∧ y = y'

/-- With one sample, the offsets of a level's padded plane are exactly the multiples of the element size below the size
of the plane; `XlateIsInjective` says that each is reached once. The spec infers this itself in R155, from the address
formulas and the alignments (rules R108, R141, R151 to R154). -/
def Obligations.XlateCoversThePlane : Prop :=
  ∀ (d : Descriptor) (m : TileMode) (L : Nat) (g : Geom) (off : Nat),
    supported d → d.aa = 0 → g = d.levelGeom specParams m L → g.mode.hasFormula = true →
      ((∃ s x y, s < g.slices ∧ x < g.pitch ∧ y < g.height ∧ d.elementOffset g s x y = some off) ↔
        ∃ k, k < g.pitch * g.height * g.slices ∧ off = k * (d.bpp / 8))

/-- For every element width, the pixel index of rule R141 places the low bits of x and y as the table of R142 says, lies in
0..63, and reaches each of the 64 indices from one of the 64 elements of a micro-tile. The table and that it is a
permutation are the spec's own inference from rule R141. -/
def Obligations.PixelIndexBits : Prop :=
  ∀ bytes ∈ [1, 2, 4, 8, 16],
    (∀ x y : Nat, pixelIndex x y bytes = ofBits (pixelBits x y bytes) ∧ pixelIndex x y bytes < 64) ∧
      ∀ k, k < 64 → ∃ x y, x < 8 ∧ y < 8 ∧ pixelIndex x y bytes = k

/-- Only SWIZZLE bits 10:8 affect what XLATE does, and only on a 2D-thin1 level: with another SWIZZLE word that has the
same bits 10:8, or with any other word where the level's mode is not 2D-thin1, XLATE writes the same and keeps that word.
The spec infers this itself in R158, from rule R153. -/
def Obligations.SeedAffectsMacroLevelsOnly : Prop :=
  ∀ (s t : State) (sw : Word),
    (s.levelHere.mode = .thin2D → sw.toNat / 256 % 8 = s.desc.swizzle.toNat / 256 % 8) →
    exec .xlate s = .next t →
      exec .xlate { s with desc := { s.desc with swizzle := sw } } =
        .next { t with desc := { t.desc with swizzle := sw } }

/-! ## The block decompressors -/

/-- BC1: all sixteen texels from BC_IN[0..1], and nothing else changes but ERR (rules R170, R173, R174, R180). -/
def Obligations.Bc1DecodesTheBlock : Prop :=
  ∀ s : State, ∃ t, exec .bc1 s = .next t ∧ t = { s with err := 0, bcOut := t.bcOut } ∧
    ∀ k : Fin 16, (t.bcOut.get k).toNat =
      packed (colorChannel s 0 false k 0) (colorChannel s 0 false k 1) (colorChannel s 0 false k 2)
        (colorChannel s 0 false k 3)

/-- BC3: alpha from the first half, the forced four-colour palette of the second half (rules R170, R175, R181). -/
def Obligations.Bc3DecodesTheBlock : Prop :=
  ∀ s : State, ∃ t, exec .bc3 s = .next t ∧ t = { s with err := 0, bcOut := t.bcOut } ∧
    ∀ k : Fin 16, (t.bcOut.get k).toNat =
      packed (colorChannel s 8 true k 0) (colorChannel s 8 true k 1) (colorChannel s 8 true k 2) (channelAt s 0 k)

/-- BC4: the channel value in red, green and blue 0, alpha 0xFF (rules R170, R175, R176, R182). -/
def Obligations.Bc4DecodesTheBlock : Prop :=
  ∀ s : State, ∃ t, exec .bc4 s = .next t ∧ t = { s with err := 0, bcOut := t.bcOut } ∧
    ∀ k : Fin 16, (t.bcOut.get k).toNat = packed (channelAt s 0 k) 0 0 255

/-- BC5: red from the first half, green from the second, blue 0, alpha 0xFF (rules R170, R175, R176, R183). -/
def Obligations.Bc5DecodesTheBlock : Prop :=
  ∀ s : State, ∃ t, exec .bc5 s = .next t ∧ t = { s with err := 0, bcOut := t.bcOut } ∧
    ∀ k : Fin 16, (t.bcOut.get k).toNat = packed (channelAt s 0 k) (channelAt s 8 k) 0 255

/-- Every interpolated value is the exact quotient rounded down (rule R172), and it lies between its endpoints, so it fits in
8 bits: this second clause is the spec's own inference in R172, "from the formula, as a weighted mean". -/
def Obligations.InterpolationStaysBetween : Prop :=
  ∀ (p q : Byte) (N i : Nat), 1 ≤ i → i < N →
    (interp p q N i).toNat = (p.toNat * (N - i) + q.toNat * i) / N ∧
      min p.toNat q.toNat ≤ (interp p q N i).toNat ∧ (interp p q N i).toNat ≤ max p.toNat q.toNat

/-- The corner cases of the channel palette, which R186 lists as the spec's own inference from rules R172 and R175. -/
def Obligations.ChannelPaletteCorners : Prop :=
  (∀ v : Byte, (List.range 8).map (fun i => pal8 v v (BitVec.ofNat 3 i)) = [v, v, v, v, v, v, 0x00, 0xFF]) ∧
    (List.range 8).map (fun i => pal8 0xFF 0x00 (BitVec.ofNat 3 i)) =
      [0xFF, 0x00, 0xDA, 0xB6, 0x91, 0x6D, 0x48, 0x24] ∧
    (List.range 8).map (fun i => pal8 0x00 0xFF (BitVec.ofNat 3 i)) =
      [0x00, 0xFF, 0x33, 0x66, 0x99, 0xCC, 0x00, 0xFF]
end

