-- ==== Sys2Proof/Laws/State.lean ====
section
/-! SUPPORT. One lemma for each field of the state and each named update of it, true by definition. -/

namespace Sys2Proof.Machine

variable (s : State)

@[simp] theorem State.raise_err (e : ErrCode) : (s.raise e).err = e.code := rfl
@[simp] theorem State.raise_layoutValid (e : ErrCode) : (s.raise e).layoutValid = s.layoutValid := rfl
@[simp] theorem State.raise_desc (e : ErrCode) : (s.raise e).desc = s.desc := rfl
@[simp] theorem State.raise_layout (e : ErrCode) : (s.raise e).layout = s.layout := rfl
@[simp] theorem State.raise_xl (e : ErrCode) : (s.raise e).xl = s.xl := rfl
@[simp] theorem State.raise_xlOffset (e : ErrCode) : (s.raise e).xlOffset = s.xlOffset := rfl
@[simp] theorem State.raise_lv (e : ErrCode) : (s.raise e).lv = s.lv := rfl
@[simp] theorem State.raise_bcIn (e : ErrCode) : (s.raise e).bcIn = s.bcIn := rfl
@[simp] theorem State.raise_bcOut (e : ErrCode) : (s.raise e).bcOut = s.bcOut := rfl
@[simp] theorem State.raise_pending (e : ErrCode) : (s.raise e).pending = s.pending := rfl
@[simp] theorem State.raise_readData (e : ErrCode) : (s.raise e).readData = s.readData := rfl

@[simp] theorem State.raiseCalc_err (e : ErrCode) : (s.raiseCalc e).err = e.code := rfl
@[simp] theorem State.raiseCalc_layoutValid (e : ErrCode) : (s.raiseCalc e).layoutValid = false := rfl
@[simp] theorem State.raiseCalc_desc (e : ErrCode) : (s.raiseCalc e).desc = s.desc := rfl
@[simp] theorem State.raiseCalc_layout (e : ErrCode) : (s.raiseCalc e).layout = s.layout := rfl
@[simp] theorem State.raiseCalc_xl (e : ErrCode) : (s.raiseCalc e).xl = s.xl := rfl
@[simp] theorem State.raiseCalc_xlOffset (e : ErrCode) : (s.raiseCalc e).xlOffset = s.xlOffset := rfl
@[simp] theorem State.raiseCalc_lv (e : ErrCode) : (s.raiseCalc e).lv = s.lv := rfl
@[simp] theorem State.raiseCalc_bcIn (e : ErrCode) : (s.raiseCalc e).bcIn = s.bcIn := rfl
@[simp] theorem State.raiseCalc_bcOut (e : ErrCode) : (s.raiseCalc e).bcOut = s.bcOut := rfl
@[simp] theorem State.raiseCalc_pending (e : ErrCode) : (s.raiseCalc e).pending = s.pending := rfl
@[simp] theorem State.raiseCalc_readData (e : ErrCode) : (s.raiseCalc e).readData = s.readData := rfl

@[simp] theorem State.succeed_err : s.succeed.err = 0 := rfl
@[simp] theorem State.succeed_layoutValid : s.succeed.layoutValid = s.layoutValid := rfl
@[simp] theorem State.succeed_desc : s.succeed.desc = s.desc := rfl
@[simp] theorem State.succeed_layout : s.succeed.layout = s.layout := rfl
@[simp] theorem State.succeed_xl : s.succeed.xl = s.xl := rfl
@[simp] theorem State.succeed_xlOffset : s.succeed.xlOffset = s.xlOffset := rfl
@[simp] theorem State.succeed_lv : s.succeed.lv = s.lv := rfl
@[simp] theorem State.succeed_bcIn : s.succeed.bcIn = s.bcIn := rfl
@[simp] theorem State.succeed_bcOut : s.succeed.bcOut = s.bcOut := rfl
@[simp] theorem State.succeed_pending : s.succeed.pending = s.pending := rfl
@[simp] theorem State.succeed_readData : s.succeed.readData = s.readData := rfl

@[simp] theorem State.setDesc_err (d : Descriptor) : (s.setDesc d).err = s.err := rfl
@[simp] theorem State.setDesc_layoutValid (d : Descriptor) : (s.setDesc d).layoutValid = false := rfl
@[simp] theorem State.setDesc_desc (d : Descriptor) : (s.setDesc d).desc = d := rfl
@[simp] theorem State.setDesc_layout (d : Descriptor) : (s.setDesc d).layout = s.layout := rfl
@[simp] theorem State.setDesc_xl (d : Descriptor) : (s.setDesc d).xl = s.xl := rfl
@[simp] theorem State.setDesc_xlOffset (d : Descriptor) : (s.setDesc d).xlOffset = s.xlOffset := rfl
@[simp] theorem State.setDesc_lv (d : Descriptor) : (s.setDesc d).lv = s.lv := rfl
@[simp] theorem State.setDesc_bcIn (d : Descriptor) : (s.setDesc d).bcIn = s.bcIn := rfl
@[simp] theorem State.setDesc_bcOut (d : Descriptor) : (s.setDesc d).bcOut = s.bcOut := rfl
@[simp] theorem State.setDesc_pending (d : Descriptor) : (s.setDesc d).pending = s.pending := rfl
@[simp] theorem State.setDesc_readData (d : Descriptor) : (s.setDesc d).readData = s.readData := rfl

@[simp] theorem State.writeLayout_err (r : LayoutResult) : (s.writeLayout r).err = s.err := rfl
@[simp] theorem State.writeLayout_layoutValid (r : LayoutResult) : (s.writeLayout r).layoutValid = true := rfl
@[simp] theorem State.writeLayout_desc (r : LayoutResult) : (s.writeLayout r).desc = r.newDesc s.desc := rfl
@[simp] theorem State.writeLayout_layout (r : LayoutResult) : (s.writeLayout r).layout = r.regs := rfl
@[simp] theorem State.writeLayout_xl (r : LayoutResult) : (s.writeLayout r).xl = s.xl := rfl
@[simp] theorem State.writeLayout_xlOffset (r : LayoutResult) : (s.writeLayout r).xlOffset = s.xlOffset := rfl
@[simp] theorem State.writeLayout_lv (r : LayoutResult) : (s.writeLayout r).lv = s.lv := rfl
@[simp] theorem State.writeLayout_bcIn (r : LayoutResult) : (s.writeLayout r).bcIn = s.bcIn := rfl
@[simp] theorem State.writeLayout_bcOut (r : LayoutResult) : (s.writeLayout r).bcOut = s.bcOut := rfl
@[simp] theorem State.writeLayout_pending (r : LayoutResult) : (s.writeLayout r).pending = s.pending := rfl
@[simp] theorem State.writeLayout_readData (r : LayoutResult) : (s.writeLayout r).readData = s.readData := rfl

@[simp] theorem State.writeLevel_err (g : Geom) : (s.writeLevel g).err = s.err := rfl
@[simp] theorem State.writeLevel_layoutValid (g : Geom) : (s.writeLevel g).layoutValid = s.layoutValid := rfl
@[simp] theorem State.writeLevel_desc (g : Geom) : (s.writeLevel g).desc = s.desc := rfl
@[simp] theorem State.writeLevel_layout (g : Geom) : (s.writeLevel g).layout = s.layout := rfl
@[simp] theorem State.writeLevel_xl (g : Geom) : (s.writeLevel g).xl = s.xl := rfl
@[simp] theorem State.writeLevel_xlOffset (g : Geom) : (s.writeLevel g).xlOffset = s.xlOffset := rfl
@[simp] theorem State.writeLevel_lv (g : Geom) : (s.writeLevel g).lv = Geom.regs g := rfl
@[simp] theorem State.writeLevel_bcIn (g : Geom) : (s.writeLevel g).bcIn = s.bcIn := rfl
@[simp] theorem State.writeLevel_bcOut (g : Geom) : (s.writeLevel g).bcOut = s.bcOut := rfl
@[simp] theorem State.writeLevel_pending (g : Geom) : (s.writeLevel g).pending = s.pending := rfl
@[simp] theorem State.writeLevel_readData (g : Geom) : (s.writeLevel g).readData = s.readData := rfl

@[simp] theorem State.writeTexels_err (t : Fin 16 → Texel) : (s.writeTexels t).err = s.err := rfl
@[simp] theorem State.writeTexels_layoutValid (t : Fin 16 → Texel) : (s.writeTexels t).layoutValid = s.layoutValid := rfl
@[simp] theorem State.writeTexels_desc (t : Fin 16 → Texel) : (s.writeTexels t).desc = s.desc := rfl
@[simp] theorem State.writeTexels_layout (t : Fin 16 → Texel) : (s.writeTexels t).layout = s.layout := rfl
@[simp] theorem State.writeTexels_xl (t : Fin 16 → Texel) : (s.writeTexels t).xl = s.xl := rfl
@[simp] theorem State.writeTexels_xlOffset (t : Fin 16 → Texel) : (s.writeTexels t).xlOffset = s.xlOffset := rfl
@[simp] theorem State.writeTexels_lv (t : Fin 16 → Texel) : (s.writeTexels t).lv = s.lv := rfl
@[simp] theorem State.writeTexels_bcIn (t : Fin 16 → Texel) : (s.writeTexels t).bcIn = s.bcIn := rfl
@[simp] theorem State.writeTexels_bcOut (t : Fin 16 → Texel) : (s.writeTexels t).bcOut = Vector.ofFn fun k => (t k).pack := rfl
@[simp] theorem State.writeTexels_pending (t : Fin 16 → Texel) : (s.writeTexels t).pending = s.pending := rfl
@[simp] theorem State.writeTexels_readData (t : Fin 16 → Texel) : (s.writeTexels t).readData = s.readData := rfl

@[simp] theorem State.afterReset_err : s.afterReset.err = State.reset.err := rfl
@[simp] theorem State.afterReset_layoutValid : s.afterReset.layoutValid = State.reset.layoutValid := rfl
@[simp] theorem State.afterReset_desc : s.afterReset.desc = State.reset.desc := rfl
@[simp] theorem State.afterReset_layout : s.afterReset.layout = State.reset.layout := rfl
@[simp] theorem State.afterReset_xl : s.afterReset.xl = State.reset.xl := rfl
@[simp] theorem State.afterReset_xlOffset : s.afterReset.xlOffset = State.reset.xlOffset := rfl
@[simp] theorem State.afterReset_lv : s.afterReset.lv = State.reset.lv := rfl
@[simp] theorem State.afterReset_bcIn : s.afterReset.bcIn = State.reset.bcIn := rfl
@[simp] theorem State.afterReset_bcOut : s.afterReset.bcOut = State.reset.bcOut := rfl
@[simp] theorem State.afterReset_pending : s.afterReset.pending = s.pending := rfl
@[simp] theorem State.afterReset_readData : s.afterReset.readData = State.reset.readData := rfl

@[simp] theorem State.withFetchWord_err (n w : Nat) : (s.withFetchWord n w).err = s.err := rfl
@[simp] theorem State.withFetchWord_layoutValid (n w : Nat) : (s.withFetchWord n w).layoutValid = s.layoutValid := rfl
@[simp] theorem State.withFetchWord_desc (n w : Nat) : (s.withFetchWord n w).desc = s.desc := rfl
@[simp] theorem State.withFetchWord_layout (n w : Nat) : (s.withFetchWord n w).layout = s.layout := rfl
@[simp] theorem State.withFetchWord_xl (n w : Nat) : (s.withFetchWord n w).xl = s.xl := rfl
@[simp] theorem State.withFetchWord_xlOffset (n w : Nat) : (s.withFetchWord n w).xlOffset = s.xlOffset := rfl
@[simp] theorem State.withFetchWord_lv (n w : Nat) : (s.withFetchWord n w).lv = s.lv := rfl
@[simp] theorem State.withFetchWord_bcIn (n w : Nat) : (s.withFetchWord n w).bcIn = s.bcIn := rfl
@[simp] theorem State.withFetchWord_bcOut (n w : Nat) : (s.withFetchWord n w).bcOut = s.bcOut := rfl
@[simp] theorem State.withFetchWord_pending (n w : Nat) : (s.withFetchWord n w).pending = .write Reg.cmd.offset 4 (tableWord n w) :: s.pending := rfl
@[simp] theorem State.withFetchWord_readData (n w : Nat) : (s.withFetchWord n w).readData = s.readData := rfl

@[simp] theorem LayoutResult.newDesc_dim (r : LayoutResult) (d : Descriptor) : (r.newDesc d).dim = d.dim := rfl
@[simp] theorem LayoutResult.newDesc_width (r : LayoutResult) (d : Descriptor) : (r.newDesc d).width = d.width := rfl
@[simp] theorem LayoutResult.newDesc_height (r : LayoutResult) (d : Descriptor) : (r.newDesc d).height = d.height := rfl
@[simp] theorem LayoutResult.newDesc_depth (r : LayoutResult) (d : Descriptor) : (r.newDesc d).depth = d.depth := rfl
@[simp] theorem LayoutResult.newDesc_mipLevels (r : LayoutResult) (d : Descriptor) : (r.newDesc d).mipLevels = BitVec.ofNat 32 r.levels := rfl
@[simp] theorem LayoutResult.newDesc_format (r : LayoutResult) (d : Descriptor) : (r.newDesc d).format = d.format := rfl
@[simp] theorem LayoutResult.newDesc_aa (r : LayoutResult) (d : Descriptor) : (r.newDesc d).aa = d.aa := rfl
@[simp] theorem LayoutResult.newDesc_usage (r : LayoutResult) (d : Descriptor) : (r.newDesc d).usage = d.usage := rfl
@[simp] theorem LayoutResult.newDesc_tileMode (r : LayoutResult) (d : Descriptor) : (r.newDesc d).tileMode = r.mode.code := rfl
@[simp] theorem LayoutResult.newDesc_swizzle (r : LayoutResult) (d : Descriptor) : (r.newDesc d).swizzle = r.swizzle := rfl

end Sys2Proof.Machine
end

