-- ==== Sys2Proof/Laws/BlockDecode.lean ====
section
/-! SUPPORT. Lemmas about the block decompressors: the bytes of a block, little-endian fields and packed texels as
numbers. -/

namespace Sys2Proof.Machine

theorem le16_toNat (lo hi : Byte) : (le16 lo hi).toNat = lo.toNat + 256 * hi.toNat := by
  have hl := lo.isLt
  unfold le16
  rw [BitVec.toNat_append, ← Nat.shiftLeft_add_eq_or_of_lt hl, Nat.shiftLeft_eq]
  omega

theorem le24_toNat (b0 b1 b2 : Byte) : (le24 b0 b1 b2).toNat = b0.toNat + 256 * b1.toNat + 65536 * b2.toNat := by
  have h0 := b0.isLt
  have h1 := b1.isLt
  unfold le24
  rw [BitVec.toNat_append, ← Nat.shiftLeft_add_eq_or_of_lt h0, BitVec.toNat_append,
    ← Nat.shiftLeft_add_eq_or_of_lt h1, Nat.shiftLeft_eq, Nat.shiftLeft_eq]
  omega

/-- The register value of a texel (rules R38, R170). -/
theorem pack_toNat (t : Texel) :
    t.pack.toNat = t.r.toNat + 2 ^ 8 * t.g.toNat + 2 ^ 16 * t.b.toNat + 2 ^ 24 * t.a.toNat := by
  have hr := t.r.isLt
  have hg := t.g.isLt
  have hb := t.b.isLt
  unfold Texel.pack
  rw [BitVec.toNat_append, ← Nat.shiftLeft_add_eq_or_of_lt hr, BitVec.toNat_append,
    ← Nat.shiftLeft_add_eq_or_of_lt hg, BitVec.toNat_append, ← Nat.shiftLeft_add_eq_or_of_lt hb,
    Nat.shiftLeft_eq, Nat.shiftLeft_eq, Nat.shiftLeft_eq]
  omega

/-- A byte of the compressed input as a number (rule R37). -/
theorem bcByte_toNat (s : State) (k : Fin 16) :
    (s.bcByte k).toNat = (s.bcIn[k.val / 4]'(by omega)).toNat / 256 ^ (k.val % 4) % 256 := by
  unfold State.bcByte
  rw [BitVec.extractLsb'_toNat, Nat.shiftRight_eq_div_pow, Nat.pow_mul]

/-- Texel `k` of what a decoder writes (rule R38). -/
@[simp] theorem writeTexels_get (s : State) (t : Fin 16 → Texel) (k : Fin 16) :
    (s.writeTexels t).bcOut.get k = (t k).pack := by
  simp [State.writeTexels, Vector.get_eq_getElem]

/-- The index of a colour palette entry as a number (rule R174). -/
theorem colorIndex_toNat (c : Fin 8 → Byte) (k : Fin 16) :
    (colorIndex c k).toNat = (c ⟨4 + k.val / 4, by omega⟩).toNat / 4 ^ (k.val % 4) % 4 := by
  unfold colorIndex
  rw [BitVec.extractLsb'_toNat, Nat.shiftRight_eq_div_pow, Nat.pow_mul]

/-- The index of a channel palette entry as a number (rule R176). -/
theorem channelIndex_toNat (a : Fin 8 → Byte) (k : Fin 16) :
    (channelIndex a k).toNat =
      if k.val < 8 then (le24 (a 2) (a 3) (a 4)).toNat / 8 ^ k.val % 8
      else (le24 (a 5) (a 6) (a 7)).toNat / 8 ^ (k.val - 8) % 8 := by
  unfold channelIndex
  split <;> rw [BitVec.extractLsb'_toNat, Nat.shiftRight_eq_div_pow, Nat.pow_mul]

end Sys2Proof.Machine
end

