-- ==== Sys2Proof/Laws/Decode.lean ====
section
/-! SUPPORT. Lemmas about the register map: each register has its own aligned offset. -/

namespace Sys2Proof

theorem Reg.mem_all (r : Reg) : r ∈ Reg.all := by
  cases r <;> first | decide | (rename_i i; revert i; decide)

/-- The register map reads back each register from its offset (rule R20). -/
@[simp] theorem Reg.ofOffset_offset (r : Reg) : Reg.ofOffset r.offset = some r := by
  have h : ∀ r ∈ Reg.all, Reg.ofOffset r.offset = some r := by decide +kernel
  exact h r r.mem_all

theorem Reg.offset_injective {r r' : Reg} (h : r.offset = r'.offset) : r = r' := by
  have := Reg.ofOffset_offset r
  rw [h, Reg.ofOffset_offset] at this
  exact (Option.some.inj this).symm

/-- An offset that the register map reads is the offset of that register. -/
theorem Reg.offset_of_ofOffset {o : BitVec 9} {r : Reg} (h : Reg.ofOffset o = some r) : r.offset = o := by
  simpa using List.find?_some h

/-- An offset without a register is unmapped (rule R51). -/
theorem Reg.ofOffset_eq_none {o : BitVec 9} (h : ∀ r : Reg, r.offset ≠ o) : Reg.ofOffset o = none := by
  cases h' : Reg.ofOffset o with
  | none => rfl
  | some r => exact absurd (Reg.offset_of_ofOffset h') (h r)

theorem Reg.offset_aligned (r : Reg) : r.offset.toNat % 4 = 0 := by
  have h : ∀ r ∈ Reg.all, r.offset.toNat % 4 = 0 := by decide
  exact h r r.mem_all

end Sys2Proof
end

