-- ==== Sys2Proof/Laws/Ops.lean ====
section
/-! SUPPORT. Lemmas about the shared operations: the arithmetic of rule R6, and what a host write can do. -/

namespace Sys2Proof.Machine

theorem dvd_roundUp (a b : Nat) : b ∣ roundUp a b := Dvd.intro_left _ rfl

theorem le_roundUp {a b : Nat} (hb : 0 < b) : a ≤ roundUp a b := by
  have h := Nat.div_add_mod (a + b - 1) b
  have hm := Nat.mod_lt (a + b - 1) hb
  unfold roundUp
  rw [Nat.mul_comm] at h
  omega

theorem roundUp_lt {a b : Nat} (hb : 0 < b) : roundUp a b < a + b := by
  have h := Nat.div_mul_le_self (a + b - 1) b
  unfold roundUp
  omega

theorem roundUp_pos {a b : Nat} (ha : 0 < a) (hb : 0 < b) : 0 < roundUp a b := lt_of_lt_of_le ha (le_roundUp hb)

@[simp] theorem roundUp_one (a : Nat) : roundUp a 1 = a := by simp [roundUp]

@[simp] theorem bitLen_zero : bitLen 0 = 0 := rfl

/-- `BitLen(v)` is at most `n` exactly when `v` is below 2^n. -/
theorem bitLen_le_iff (v n : Nat) : bitLen v ≤ n ↔ v < 2 ^ n := by
  unfold bitLen
  split
  · next h => simp [h]
  · next h => rw [Nat.add_one_le_iff, Nat.log2_lt h]

/-- Halving takes one from `BitLen` (the recurrence of rule R6). -/
theorem bitLen_halve {v : Nat} (h : v ≠ 0) : bitLen v = bitLen (v / 2) + 1 := by
  apply Nat.le_antisymm
  · rw [bitLen_le_iff, Nat.pow_succ]
    have := (bitLen_le_iff (v / 2) (bitLen (v / 2))).1 le_rfl
    omega
  · have hv : 0 < bitLen v := by simp [bitLen, h]
    have hlt := (bitLen_le_iff v (bitLen v)).1 le_rfl
    obtain ⟨n, hn⟩ : ∃ n, bitLen v = n + 1 := ⟨bitLen v - 1, by omega⟩
    rw [hn, Nat.add_le_add_iff_right, bitLen_le_iff]
    rw [hn, Nat.pow_succ] at hlt
    omega

/-- For `v ≥ 1`, `NextPow2(v)` is at most 2^n exactly when `v` is: it is the least power of two from `v` on. -/
theorem nextPow2_le_iff {v : Nat} (hv : 0 < v) (n : Nat) : nextPow2 v ≤ 2 ^ n ↔ v ≤ 2 ^ n := by
  rw [nextPow2, Nat.pow_le_pow_iff_right (by omega), bitLen_le_iff]
  omega

/-- `NextPow2(v)` stays below a power of two exactly where `v` is at most half of it. -/
theorem nextPow2_lt_iff {v : Nat} (hv : 0 < v) (n : Nat) : nextPow2 v < 2 ^ (n + 1) ↔ v ≤ 2 ^ n := by
  rw [← nextPow2_le_iff hv, nextPow2, Nat.pow_lt_pow_iff_right (by omega), Nat.pow_le_pow_iff_right (by omega),
    Nat.lt_succ_iff]

theorem nextPow2_mono {v w : Nat} (h : v ≤ w) : nextPow2 v ≤ nextPow2 w := by
  unfold nextPow2
  apply Nat.pow_le_pow_right (by omega)
  rw [bitLen_le_iff]
  exact lt_of_le_of_lt (Nat.sub_le_sub_right h 1) ((bitLen_le_iff _ _).1 le_rfl)

@[simp] theorem testBit_clearBits (v m i : Nat) : (clearBits v m).testBit i = (v.testBit i && !m.testBit i) := by
  simp only [clearBits, Nat.testBit_xor, Nat.testBit_and]
  cases v.testBit i <;> cases m.testBit i <;> rfl

/-- Clearing the low `n` bits takes the remainder away. -/
theorem clearBits_mask (v n : Nat) : clearBits v (2 ^ n - 1) = 2 ^ n * (v / 2 ^ n) := by
  apply Nat.eq_of_testBit_eq
  intro i
  rw [testBit_clearBits, Nat.testBit_two_pow_sub_one, Nat.testBit_two_pow_mul, Nat.testBit_div_two_pow]
  by_cases h : i < n
  · simp [h, Nat.not_le.2 h]
  · simp [h, Nat.not_lt.1 h, Nat.sub_add_cancel (Nat.not_lt.1 h)]

/-- What a host write can do: store a descriptor and clear LAYOUT_VALID, store an operand of the translator, store an
input word, or nothing (rules R20, R41). -/
theorem hostWrite_cases (s : State) (v : Word) (r : Reg) :
    (∃ d, s.hostWrite v r = s.setDesc d) ∨ (∃ o, s.hostWrite v r = { s with xl := o }) ∨
      (∃ b, s.hostWrite v r = { s with bcIn := b }) ∨ s.hostWrite v r = s := by
  cases r <;>
    first | exact .inl ⟨_, rfl⟩ | exact .inr (.inl ⟨_, rfl⟩) | exact .inr (.inr (.inl ⟨_, rfl⟩))

/-- A host write leaves ERR, the computed registers, the results and the port as they are (rules R20, R255, R257,
R258). -/
theorem hostWrite_frame (s : State) (v : Word) (r : Reg) :
    (s.hostWrite v r).err = s.err ∧ (s.hostWrite v r).layout = s.layout ∧ (s.hostWrite v r).xlOffset = s.xlOffset ∧
      (s.hostWrite v r).lv = s.lv ∧ (s.hostWrite v r).bcOut = s.bcOut ∧ (s.hostWrite v r).pending = s.pending ∧
      (s.hostWrite v r).readData = s.readData := by
  rcases hostWrite_cases s v r with ⟨_, h⟩ | ⟨_, h⟩ | ⟨_, h⟩ | h <;> rw [h] <;> simp [State.setDesc]

end Sys2Proof.Machine
end

