-- ==== Sys2Proof/Laws/Geometry.lean ====
section
/-! SUPPORT. Lemmas about tile modes, level extents, alignments and level geometry. -/

namespace Sys2Proof

@[simp] theorem TileMode.ofCode_code_of_concrete {m : TileMode} (h : m.isConcrete = true) :
    TileMode.ofCode m.code = m := by
  cases m <;> first | rfl | cases h

/-- The code that a tile mode was read from is the mode's code (rule R74). -/
@[simp] theorem TileMode.code_ofCode (w : Word) : (TileMode.ofCode w).code = w := by
  unfold TileMode.ofCode
  split <;> first | rfl | (apply BitVec.eq_of_toNat_eq; simp_all [TileMode.code])

namespace Machine

theorem specParams_geomAlign : specParams.geomAlign = tableAlign := rfl
theorem specParams_levelMode : specParams.levelMode = levelTileMode := rfl
theorem specParams_fallback : specParams.fallback = bothBelowAlign := rfl
theorem specParams_marker : specParams.marker = 13 := rfl

/-- Level 0 keeps its mode (rule R107). -/
@[simp] theorem levelTileMode_zero (m : TileMode) (ew eh n : Nat) : levelTileMode m 0 ew eh n = m := rfl

/-- The modes that a level can have: the level-0 mode, or a thinner or micro-tiled one (rule R107). -/
theorem levelTileMode_cases (m : TileMode) (L ew eh n : Nat) :
    levelTileMode m L ew eh n = m ∨
      (m = .thick2D ∧ levelTileMode m L ew eh n ∈ [.thin2D, .thin1D, .thick1D]) ∨
      (m = .thin2D ∧ levelTileMode m L ew eh n = .thin1D) ∨
      (m = .thick1D ∧ levelTileMode m L ew eh n = .thin1D) := by
  cases m <;> simp only [levelTileMode] <;> split_ifs <;> simp_all

/-- Where each mode goes at a level above 0: the downgrades of rule R107, taken in their order. -/
theorem levelTileMode_eq {L : Nat} (hL : L ≠ 0) (m : TileMode) (ew eh n : Nat) :
    levelTileMode m L ew eh n =
      if nextPow2 ew < 32 ∨ nextPow2 eh < 16 then
        if m = .thin2D ∨ (m = .thick2D ∨ m = .thick1D) ∧ nextPow2 n < 4 then .thin1D
        else if m = .thick2D then .thick1D
        else m
      else if nextPow2 n < 4 then (if m = .thick2D then .thin2D else if m = .thick1D then .thin1D else m)
      else m := by
  cases m <;> by_cases hs : nextPow2 ew < 32 ∨ nextPow2 eh < 16 <;> by_cases hn : nextPow2 n < 4 <;>
    simp only [levelTileMode, hL, hs, hn, if_true, if_false, reduceCtorEq, and_true, and_false, or_true, or_false]

/-- A concrete level-0 mode has concrete level modes (rules R74, R107). -/
theorem levelTileMode_concrete {m : TileMode} (h : m.isConcrete = true) (L ew eh n : Nat) :
    (levelTileMode m L ew eh n).isConcrete = true := by
  rcases levelTileMode_cases m L ew eh n with h' | ⟨-, h'⟩ | ⟨-, h'⟩ | ⟨-, h'⟩
  · rw [h', h]
  · simp only [List.mem_cons, List.not_mem_nil, or_false] at h'
    rcases h' with h' | h' | h' <;> rw [h'] <;> rfl
  · rw [h']; rfl
  · rw [h']; rfl

theorem levelWidth_pos (d : Descriptor) (L : Nat) : 0 < d.levelWidth L := by unfold Descriptor.levelWidth; omega

theorem levelHeight_pos (d : Descriptor) (L : Nat) : 0 < d.levelHeight L := by
  unfold Descriptor.levelHeight; split <;> omega

theorem levelSlices_pos (d : Descriptor) (L : Nat) : 0 < d.levelSlices L := by
  unfold Descriptor.levelSlices; split <;> omega

theorem inElements_pos (d : Descriptor) {n : Nat} (h : 0 < n) : 0 < d.inElements n := by
  unfold Descriptor.inElements; split <;> omega

theorem inElements_mono (d : Descriptor) {m n : Nat} (h : m ≤ n) : d.inElements m ≤ d.inElements n := by
  unfold Descriptor.inElements; split <;> omega

theorem elemWidth_pos (d : Descriptor) (L : Nat) : 0 < d.elemWidth L := inElements_pos d (levelWidth_pos d L)

theorem elemHeight_pos (d : Descriptor) (L : Nat) : 0 < d.elemHeight L := inElements_pos d (levelHeight_pos d L)

theorem shiftRight_antitone (v : Nat) {L L' : Nat} (h : L ≤ L') : v >>> L' ≤ v >>> L := by
  simp only [Nat.shiftRight_eq_div_pow]
  exact Nat.div_le_div_left (Nat.pow_le_pow_right (by omega) h) (Nat.pow_pos (by omega))

/-- The extents never grow with the level (rule R107). -/
theorem levelWidth_antitone (d : Descriptor) {L L' : Nat} (h : L ≤ L') : d.levelWidth L' ≤ d.levelWidth L := by
  have := shiftRight_antitone d.width.toNat h
  unfold Descriptor.levelWidth; omega

theorem levelHeight_antitone (d : Descriptor) {L L' : Nat} (h : L ≤ L') : d.levelHeight L' ≤ d.levelHeight L := by
  have := shiftRight_antitone d.height.toNat h
  unfold Descriptor.levelHeight; split <;> omega

theorem levelSlices_antitone (d : Descriptor) {L L' : Nat} (h : L ≤ L') : d.levelSlices L' ≤ d.levelSlices L := by
  have := shiftRight_antitone d.depth.toNat h
  unfold Descriptor.levelSlices; split <;> omega

/-- The bits per element that the format table holds (rule R39). -/
theorem formatBpp_cases (c : BitVec 6) :
    formatBpp c = 0 ∨ formatBpp c = 16 ∨ formatBpp c = 32 ∨ formatBpp c = 64 ∨ formatBpp c = 128 := by
  revert c; decide

theorem samples_cases (d : Descriptor) : d.samples = 1 ∨ d.samples = 2 ∨ d.samples = 4 ∨ d.samples = 8 := by
  have h : ∀ a : BitVec 2, 1 <<< a.toNat = 1 ∨ 1 <<< a.toNat = 2 ∨ 1 <<< a.toNat = 4 ∨ 1 <<< a.toNat = 8 := by decide
  exact h d.aa

/-- The alignments of a concrete mode are at least 1 (rule R108). -/
theorem tableAlign_pos {m : TileMode} {bpp samples : Nat} (hm : m.isConcrete = true) (hb : bpp ≠ 0) :
    0 < (tableAlign m bpp samples).pitch ∧ 0 < (tableAlign m bpp samples).height ∧
      0 < (tableAlign m bpp samples).slices := by
  cases m <;> simp [tableAlign, hb, macroPitchAlign, TileMode.thickness, TileMode.isThick, TileMode.code,
    TileMode.isConcrete] at hm ⊢

section
variable (P : LayoutParams) (d : Descriptor) (m : TileMode) (L : Nat)

theorem levelGeom_mode :
    (d.levelGeom P m L).mode = P.levelMode m L (d.elemWidth L) (d.elemHeight L) (d.levelSlices L) := rfl

theorem levelGeom_pitchAlign :
    (d.levelGeom P m L).pitchAlign = (P.geomAlign (d.levelGeom P m L).mode d.bpp d.samples).pitch := rfl

theorem levelGeom_heightAlign :
    (d.levelGeom P m L).heightAlign = (P.geomAlign (d.levelGeom P m L).mode d.bpp d.samples).height := rfl

theorem levelGeom_pitch :
    (d.levelGeom P m L).pitch = roundUp (d.elemWidth L) (P.geomAlign (d.levelGeom P m L).mode d.bpp d.samples).pitch :=
  rfl

theorem levelGeom_height :
    (d.levelGeom P m L).height
      = roundUp (d.elemHeight L) (P.geomAlign (d.levelGeom P m L).mode d.bpp d.samples).height := rfl

theorem levelGeom_slices :
    (d.levelGeom P m L).slices
      = roundUp (d.levelSlices L) (P.geomAlign (d.levelGeom P m L).mode d.bpp d.samples).slices := rfl

theorem levelGeom_size :
    (d.levelGeom P m L).size
      = (d.levelGeom P m L).pitch * (d.levelGeom P m L).height * (d.levelGeom P m L).slices * d.samples * d.bpp / 8 :=
  rfl

theorem levelGeom_align :
    (d.levelGeom P m L).align = (P.geomAlign (d.levelGeom P m L).mode d.bpp d.samples).base := rfl

/-- The geometry of a level depends on the descriptor through its dimension, extents, format code and sample count:
TILE_MODE, MIP_LEVELS, USE and SWIZZLE do not enter (rules R105 to R109). -/
theorem levelGeom_congr {d d' : Descriptor} (hdim : d'.dim = d.dim) (hw : d'.width = d.width)
    (hh : d'.height = d.height) (hd : d'.depth = d.depth) (hf : d'.formatCode = d.formatCode) (ha : d'.aa = d.aa) :
    d'.levelGeom P m L = d.levelGeom P m L := by
  have hD : d'.dimension = d.dimension := by unfold Descriptor.dimension; rw [hdim]
  have hB : d'.bpp = d.bpp := by unfold Descriptor.bpp; rw [hf]
  have hC : d'.isBc = d.isBc := by unfold Descriptor.isBc; rw [hf]
  have hS : d'.samples = d.samples := by unfold Descriptor.samples; rw [ha]
  have hew : d'.elemWidth L = d.elemWidth L := by
    unfold Descriptor.elemWidth Descriptor.inElements Descriptor.levelWidth; rw [hC, hw]
  have heh : d'.elemHeight L = d.elemHeight L := by
    unfold Descriptor.elemHeight Descriptor.inElements Descriptor.levelHeight; rw [hC, hD, hh]
  have hsl : d'.levelSlices L = d.levelSlices L := by
    unfold Descriptor.levelSlices; rw [hD, hd]
  simp only [Descriptor.levelGeom, hB, hS, hew, heh, hsl]

end

end Machine

end Sys2Proof
end

