-- ==== Sys2Proof/Laws/Layout.lean ====
section
/-! SUPPORT. Lemmas about CALC and GEOM: level 0, the mip walk, and what the two commands can do. -/

namespace Sys2Proof.Machine

/-- With the spec's parameters, the adjustment of rule R110 changes nothing: level 0 reports the mode it is given. -/
@[simp] theorem adjustZero_spec (d : Descriptor) (m : TileMode) (sw : Word) :
    d.adjustZero specParams m sw = { mode := m, geom := d.levelGeom specParams m 0, swizzle := sw } := by
  unfold Descriptor.adjustZero
  rw [if_neg]
  rintro ⟨-, h⟩
  exact h rfl

/-- Level 0 with the spec's parameters: the starting mode, or the fallback of an auto-chosen one (rule R111). -/
theorem levelZero_cases (d : Descriptor) :
    (d.levelZero specParams =
        { mode := d.startMode, geom := d.levelGeom specParams d.startMode 0,
          swizzle := initSwizzle specParams d.swizzle d.startMode } ∧
      ¬ (d.isAuto = true ∧
        bothBelowAlign (d.elemWidth 0) (d.elemHeight 0) (d.levelGeom specParams d.startMode 0) = true)) ∨
    ((d.isAuto = true ∧
        bothBelowAlign (d.elemWidth 0) (d.elemHeight 0) (d.levelGeom specParams d.startMode 0) = true) ∧
      ∃ m, (m = .thick1D ∨ m = .thin1D) ∧ m = (if d.startMode.isThick then .thick1D else .thin1D) ∧
        d.levelZero specParams =
          { mode := m, geom := d.levelGeom specParams m 0,
            swizzle := clearDegrade (initSwizzle specParams d.swizzle d.startMode) }) := by
  unfold Descriptor.levelZero Descriptor.fallbackZero
  rw [adjustZero_spec, specParams_fallback]
  split
  · next h =>
    refine .inr ⟨h, _, ?_, rfl, rfl⟩
    split <;> simp
  · next h => exact .inl ⟨rfl, h⟩

/-- The geometry that CALC keeps for level 0 is that of the mode it keeps (rule R112). -/
theorem levelZero_geom (d : Descriptor) :
    (d.levelZero specParams).geom = d.levelGeom specParams (d.levelZero specParams).mode 0 := by
  rcases levelZero_cases d with ⟨h, -⟩ | ⟨-, m, -, -, h⟩ <;> rw [h]

/-- A walk over one more level is one more step (rule R113). -/
theorem mipWalk_succ (P : LayoutParams) (d : Descriptor) (m : TileMode) (sw : Word) {n : Nat} (h : 1 ≤ n) :
    d.mipWalk P m sw (n + 1) = (d.mipWalk P m sw n).step (d.levelGeom P m n) n := by
  unfold Descriptor.mipWalk
  obtain ⟨k, rfl⟩ : ∃ k, n = k + 1 := ⟨n - 1, by omega⟩
  have hr : List.range' 1 (k + 1) = List.range' 1 k ++ [1 + k] := by
    rw [List.range'_concat]; simp
  rw [show k + 1 + 1 - 1 = k + 1 from rfl, show k + 1 - 1 = k from rfl, hr, List.foldl_append]
  simp [Nat.add_comm]

@[simp] theorem mipWalk_one (P : LayoutParams) (d : Descriptor) (m : TileMode) (sw : Word) :
    d.mipWalk P m sw 1 = Walk.start m sw := rfl

/-- The walk lists one offset and one size for each level from 1 on (rule R113). -/
theorem mipWalk_length (P : LayoutParams) (d : Descriptor) (m : TileMode) (sw : Word) (k : Nat) :
    (d.mipWalk P m sw (k + 1)).offsets.length = k ∧ (d.mipWalk P m sw (k + 1)).sizes.length = k := by
  induction k with
  | zero => exact ⟨rfl, rfl⟩
  | succ k ih => rw [mipWalk_succ P d m sw (by omega)]; simp [Walk.step, ih.1, ih.2]

/-- There is at least one level (rule R104). -/
theorem one_le_mipCount (d : Descriptor) : 1 ≤ d.mipCount := by
  unfold Descriptor.mipCount
  split
  · exact le_rfl
  · exact le_max_right _ _

/-- When CALC's computation succeeds: the checks pass, and the values fit (rules R101, R121). -/
theorem calculate_ok_iff (P : LayoutParams) (d : Descriptor) (r : LayoutResult) :
    d.calculate P = .ok r ↔ d.calcCheck = none ∧ (d.layoutResult P).fits = true ∧ r = d.layoutResult P := by
  unfold Descriptor.calculate
  cases d.calcCheck with
  | some e => simp
  | none =>
    by_cases h : (d.layoutResult P).fits = true
    · simp [h, eq_comm]
    · simp [h]

/-- The errors of CALC's checks (rule R101). -/
theorem calcCheck_some {d : Descriptor} {e : ErrCode} (h : d.calcCheck = some e) :
    e = .imageTooBig ∨ e = .formatNotSupported ∨ e = .tileModeNotSupported := by
  unfold Descriptor.calcCheck at h
  split_ifs at h <;> simp_all

/-- What CALC can do: fail, writing STATUS only, or write the layout (rule R100). -/
theorem execCalc_cases (s : State) :
    (∃ e, s.desc.calculate specParams = .error e ∧ execCalc s = .next (s.raiseCalc e)) ∨
      ∃ r, s.desc.calculate specParams = .ok r ∧ execCalc s = .next (s.writeLayout r).succeed := by
  unfold execCalc
  cases h : s.desc.calculate specParams with
  | error e => exact .inl ⟨e, rfl, rfl⟩
  | ok r => exact .inr ⟨r, rfl, rfl⟩

/-- What the opening of GEOM and XLATE can do (rules R120, R150, R225). -/
theorem selectLevel_cases (s : State) :
    (s.layoutValid = false ∧ s.selectLevel = .error .layoutNotValid) ∨
    (s.layoutValid = true ∧ s.desc.mipLevels.toNat ≤ s.xl.level.toNat ∧ s.selectLevel = .error .coordOutOfRange) ∨
    (s.layoutValid = true ∧ s.xl.level.toNat < s.desc.mipLevels.toNat ∧
      s.selectLevel = .ok (s.desc.levelGeom specParams s.desc.requestedMode s.xl.level.toNat)) := by
  unfold State.selectLevel
  cases hv : s.layoutValid with
  | false => exact .inl ⟨rfl, by simp⟩
  | true =>
    by_cases hl : s.desc.mipLevels.toNat ≤ s.xl.level.toNat
    · exact .inr (.inl ⟨rfl, hl, by simp [hl]⟩)
    · exact .inr (.inr ⟨rfl, by omega, by simp [hl]⟩)

/-- What GEOM can do: fail, writing ERR only, or write LV_* (rule R120). -/
theorem execGeom_cases (s : State) :
    (∃ e, s.selectLevel = .error e ∧ execGeom s = .next (s.raise e)) ∨
      ∃ g, s.selectLevel = .ok g ∧ execGeom s = .next (s.writeLevel g).succeed := by
  unfold execGeom
  cases h : s.selectLevel with
  | error e => exact .inl ⟨e, rfl, rfl⟩
  | ok g => exact .inr ⟨g, rfl, rfl⟩

end Sys2Proof.Machine
end

