-- ==== Sys2Proof/Laws/PerInstr.lean ====
section
/-! SUPPORT. The family `EncodeDecodes`, one lemma for each command: the command is well-formed and its word decodes
to it (rules R70, R71). -/

namespace Sys2Proof.Laws

/-- The word of a command decodes to the command, and its bits 31:8 are zero. -/
def EncodeDecodes.Statement (i : Instr) : Prop :=
  i.wellFormed = true ∧ decode (encode i) = some i ∧ (encode i).extractLsb' 8 24 = 0

theorem EncodeDecodes.nop : EncodeDecodes.Statement .nop := by unfold EncodeDecodes.Statement; decide
theorem EncodeDecodes.calculate : EncodeDecodes.Statement .calculate := by unfold EncodeDecodes.Statement; decide
theorem EncodeDecodes.geom : EncodeDecodes.Statement .geom := by unfold EncodeDecodes.Statement; decide
theorem EncodeDecodes.xlate : EncodeDecodes.Statement .xlate := by unfold EncodeDecodes.Statement; decide
theorem EncodeDecodes.bc1 : EncodeDecodes.Statement .bc1 := by unfold EncodeDecodes.Statement; decide
theorem EncodeDecodes.bc3 : EncodeDecodes.Statement .bc3 := by unfold EncodeDecodes.Statement; decide
theorem EncodeDecodes.bc4 : EncodeDecodes.Statement .bc4 := by unfold EncodeDecodes.Statement; decide
theorem EncodeDecodes.bc5 : EncodeDecodes.Statement .bc5 := by unfold EncodeDecodes.Statement; decide

end Sys2Proof.Laws
end

