-- ==== Sys2Proof/Laws/Translate.lean ====
section
/-! SUPPORT. Lemmas about XLATE: what the command can do, and when a level has an address formula. -/

namespace Sys2Proof.Machine

/-- A level has an offset for an element exactly when its mode has an address formula (rule R156). -/
theorem elementOffset_isSome (d : Descriptor) (g : Geom) (s x y : Nat) :
    (d.elementOffset g s x y).isSome = g.mode.hasFormula := by
  unfold Descriptor.elementOffset
  cases g.mode <;> rfl

/-- An element is in the padded plane when each coordinate is in its range (rule R157). -/
theorem inPlane_iff (g : Geom) (s x y : Nat) :
    Geom.inPlane g s x y = true ↔ s < g.slices ∧ x < g.pitch ∧ y < g.height := by
  simp [Geom.inPlane, and_assoc]

/-- When XLATE's computation succeeds (rules R150, R225). -/
theorem translate_ok_iff (s : State) (g : Geom) (off : Nat) :
    s.translate = .ok (g, off) ↔ s.selectLevel = .ok g ∧
      s.desc.elementOffset g s.xl.slice.toNat s.xl.x.toNat s.xl.y.toNat = some off ∧
      Geom.inPlane g s.xl.slice.toNat s.xl.x.toNat s.xl.y.toNat = true := by
  unfold State.translate
  cases h : s.selectLevel with
  | error e => simp
  | ok g' =>
    cases h' : s.desc.elementOffset g' s.xl.slice.toNat s.xl.x.toNat s.xl.y.toNat with
    | none =>
      simp only [h', reduceCtorEq, Except.ok.injEq, false_iff, not_and]
      rintro rfl
      simp [h']
    | some o =>
      by_cases hp : Geom.inPlane g' s.xl.slice.toNat s.xl.x.toNat s.xl.y.toNat = true
      · simp only [h', hp, if_true, Except.ok.injEq, Prod.mk.injEq]
        constructor
        · rintro ⟨rfl, rfl⟩; exact ⟨rfl, h', hp⟩
        · rintro ⟨rfl, h2, -⟩; exact ⟨rfl, by rw [h'] at h2; exact Option.some.inj h2⟩
      · simp only [h', hp, Bool.false_eq_true, if_false, reduceCtorEq, Except.ok.injEq, false_iff, not_and]
        rintro rfl -
        exact hp

/-- The errors of XLATE's computation, in their order (rules R222, R225). -/
theorem translate_error {s : State} {e : ErrCode} (h : s.translate = .error e) :
    e = .layoutNotValid ∨ e = .coordOutOfRange ∨ e = .tileModeNotSupported := by
  unfold State.translate at h
  rcases selectLevel_cases s with ⟨-, h'⟩ | ⟨-, -, h'⟩ | ⟨-, -, h'⟩ <;> rw [h'] at h
  · simp_all
  · simp_all
  · simp only at h
    split at h
    · simp_all
    · split at h <;> simp_all

/-- What XLATE can do: fail, writing ERR only, or write XL_OFFSET and LV_* (rule R150). -/
theorem execXlate_cases (s : State) :
    (∃ e, s.translate = .error e ∧ execXlate s = .next (s.raise e)) ∨
      ∃ g off, s.translate = .ok (g, off) ∧
        execXlate s = .next { s with err := 0, lv := Geom.regs g, xlOffset := BitVec.ofNat 32 off } := by
  unfold execXlate
  cases h : s.translate with
  | error e => exact .inl ⟨e, rfl, rfl⟩
  | ok p => exact .inr ⟨p.1, p.2, rfl, rfl⟩

end Sys2Proof.Machine
end

