-- ==== Sys2Proof/Laws/Port.lean ====
section
/-! SUPPORT. Lemmas about the port and the step: what serving one event can do. -/

namespace Sys2Proof.Machine

/-- What a command can do, said once for all eight: fail as a CALC, fail as another command, write a layout, write a
level, write a level and an offset, write the texels, or report success alone (rules R81, R223). -/
theorem exec_cases (i : Instr) (s : State) :
    (i = .calculate ∧ ∃ e, s.desc.calculate specParams = .error e ∧ exec i s = .next (s.raiseCalc e)) ∨
    (i = .calculate ∧ ∃ r, s.desc.calculate specParams = .ok r ∧ exec i s = .next (s.writeLayout r).succeed) ∨
    (i = .geom ∧ ∃ e, s.selectLevel = .error e ∧ exec i s = .next (s.raise e)) ∨
    (i = .geom ∧ ∃ g, s.selectLevel = .ok g ∧ exec i s = .next (s.writeLevel g).succeed) ∨
    (i = .xlate ∧ ∃ e, s.translate = .error e ∧ exec i s = .next (s.raise e)) ∨
    (i = .xlate ∧ ∃ g off, s.translate = .ok (g, off) ∧
      exec i s = .next { s with err := 0, lv := Geom.regs g, xlOffset := BitVec.ofNat 32 off }) ∨
    ((i = .bc1 ∨ i = .bc3 ∨ i = .bc4 ∨ i = .bc5) ∧ ∃ t, exec i s = .next (s.writeTexels t).succeed) ∨
    (i = .nop ∧ exec i s = .next s.succeed) := by
  cases i with
  | nop => exact .inr (.inr (.inr (.inr (.inr (.inr (.inr ⟨rfl, rfl⟩))))))
  | calculate =>
    rcases execCalc_cases s with h | h
    · exact .inl ⟨rfl, h⟩
    · exact .inr (.inl ⟨rfl, h⟩)
  | geom =>
    rcases execGeom_cases s with h | h
    · exact .inr (.inr (.inl ⟨rfl, h⟩))
    · exact .inr (.inr (.inr (.inl ⟨rfl, h⟩)))
  | xlate =>
    rcases execXlate_cases s with h | h
    · exact .inr (.inr (.inr (.inr (.inl ⟨rfl, h⟩))))
    · exact .inr (.inr (.inr (.inr (.inr (.inl ⟨rfl, h⟩)))))
  | bc1 => exact .inr (.inr (.inr (.inr (.inr (.inr (.inl ⟨by simp, _, rfl⟩))))))
  | bc3 => exact .inr (.inr (.inr (.inr (.inr (.inr (.inl ⟨by simp, _, rfl⟩))))))
  | bc4 => exact .inr (.inr (.inr (.inr (.inr (.inr (.inl ⟨by simp, _, rfl⟩))))))
  | bc5 => exact .inr (.inr (.inr (.inr (.inr (.inr (.inl ⟨by simp, _, rfl⟩))))))

/-- What serving one event can do (rules R20, R21, R53, R54, R57, R251). -/
theorem servePort_cases (e : PortEvent) (s : State) :
    (e.wellFormed = false ∧ servePort e s = .refused .busError) ∨
    (e = .reset ∧ servePort e s = .next s.afterReset) ∨
    (∃ o, e = .read o 4 ∧ servePort e s = .next { s with readData := some (s.readOffset o) }) ∨
    (∃ w i, e = .write 0x000 4 w ∧ decode w = some i ∧ servePort e s = exec i s) ∨
    (∃ w, e = .write 0x000 4 w ∧ decode w = none ∧ servePort e s = .next (s.raise .badCommand)) ∨
    (∃ r v, r ≠ .cmd ∧ e = .write r.offset 4 v ∧ servePort e s = .next (s.hostWrite v r)) ∨
    (∃ o v, e = .write o 4 v ∧ Reg.ofOffset o = none ∧ servePort e s = .next s) := by
  cases hw : e.wellFormed with
  | false => exact .inl ⟨rfl, by simp [servePort, hw]⟩
  | true =>
    refine .inr ?_
    cases e with
    | reset => exact .inl ⟨rfl, rfl⟩
    | read o width =>
      have h4 : width = 4 := by simp [PortEvent.wellFormed] at hw; exact hw.1
      subst h4
      exact .inr (.inl ⟨o, rfl, by simp [servePort, hw]⟩)
    | write o width v =>
      have h4 : width = 4 := by simp [PortEvent.wellFormed] at hw; exact hw.1
      subst h4
      have hs : servePort (.write o 4 v) s = writeOffset o v s := by simp [servePort, hw]
      refine .inr (.inr ?_)
      cases ho : Reg.ofOffset o with
      | none => exact .inr (.inr (.inr ⟨o, v, rfl, ho, by rw [hs]; simp [writeOffset, ho]⟩))
      | some r =>
        have hr := Reg.offset_of_ofOffset ho
        subst hr
        by_cases hc : r = .cmd
        · subst hc
          have hx : writeOffset Reg.cmd.offset v s = runCommandWord v s := by simp [writeOffset]
          cases hd : decode v with
          | some i => exact .inl ⟨v, i, rfl, hd, by rw [hs, hx]; simp [runCommandWord, hd]⟩
          | none => exact .inr (.inl ⟨v, rfl, hd, by rw [hs, hx]; simp [runCommandWord, hd]⟩)
        · refine .inr (.inr (.inl ⟨r, v, hc, rfl, ?_⟩))
          rw [hs]
          unfold writeOffset
          rw [Reg.ofOffset_offset]
          split <;> simp_all

/-- A step with nothing pending changes nothing (rule R236). -/
theorem step_idle {s : State} (h : s.pending = []) : step s = .next s := by unfold step; rw [h]

/-- A step serves the first pending event (rule R57). -/
theorem step_cons {s : State} {e : PortEvent} {rest : List PortEvent} (h : s.pending = e :: rest) :
    step s = servePort e { s with pending := rest } := by unfold step; rw [h]

end Sys2Proof.Machine
end

