-- ==== Sys2Proof/Tests/Slice0.lean ====
section
/-! SUPPORT. The model's own tests. Expected values are the spec's: the words of rule R71, the vectors of
95_test_vectors.md (named V-…), and the worked examples of the rules. The last section shows, for each statement with
hypotheses, a state and operands that meet them, at boundary values where the statement has ranges. -/

-- The kernel evaluations of this file run one after the other: side by side they take one thread each, and their stacks
-- together pass the memory limit of a check.
set_option Elab.async false

namespace Sys2Proof.Tests

open Sys2Proof.Machine Sys2Proof.Rules

/-! ## Well-formedness: each check refuses an ill-formed term -/

theorem test_wf_read_aligned : (PortEvent.read 0x004 4).wellFormed = true := by decide
theorem test_wf_read_misaligned : (PortEvent.read 0x006 4).wellFormed = false := by decide
theorem test_wf_read_narrow : (PortEvent.read 0x004 2).wellFormed = false := by decide
theorem test_wf_write_misaligned : (PortEvent.write 0x001 4 0).wellFormed = false := by decide
theorem test_wf_write_wide : (PortEvent.write 0x010 8 0).wellFormed = false := by decide
theorem test_wf_line_value : (HostLine.wr .width (2 ^ 32 - 1)).wellFormed = true := by decide
theorem test_wf_line_value_too_big : (HostLine.wr .width (2 ^ 32)).wellFormed = false := by decide
theorem test_wf_xlate_operand_too_big : (HostLine.xlate 0 0 0 (2 ^ 32)).wellFormed = false := by decide
theorem test_wf_geom_operand_too_big : (HostLine.geom (2 ^ 32)).wellFormed = false := by decide
theorem test_wf_bcin_operand_too_big : (HostLine.bcin 0 (2 ^ 32) 0 0).wellFormed = false := by decide

/-! ## Decoding: the words of rule R71, and reserved words of rule R79 -/

theorem test_decode_nop : decode 0x00000000 = some .nop := by decide
theorem test_decode_calc : decode 0x00000001 = some .calculate := by decide
theorem test_decode_geom : decode 0x00000002 = some .geom := by decide
theorem test_decode_xlate : decode 0x00000003 = some .xlate := by decide
theorem test_decode_bc1 : decode 0x00000031 = some .bc1 := by decide
theorem test_decode_bc3 : decode 0x00000033 = some .bc3 := by decide
theorem test_decode_bc4 : decode 0x00000034 = some .bc4 := by decide
theorem test_decode_bc5 : decode 0x00000035 = some .bc5 := by decide
theorem test_decode_bc2_reserved : decode 0x00000032 = none := by decide
theorem test_decode_mbz_low : decode 0x00000101 = none := by decide
theorem test_decode_mbz_high : decode 0x80000001 = none := by decide
theorem test_decodeTableWord : decodeTableWord 32 0x33 = some .bc3 := by decide

/-- Program P1, line 2, and the pseudo-instruction of program P3, lines 14 and 15. -/
theorem test_line_wr : (HostLine.wr .width 64).encode = [.write 0x014 4 0x00000040] := by decide
theorem test_line_geom : (HostLine.geom 4).encode = [.write 0x080 4 4, .write 0x000 4 2] := by decide

/-- Offsets of program P2 (BC_OUT[15]) and P3 (MIP_OFFSET[7]), and an unmapped word. -/
theorem test_offset_bcOut15 : Reg.ofOffset 0x10C = some (.bcOut 15) := by decide
theorem test_offset_mipOffset7 : Reg.ofOffset 0x064 = some (.mipOffset 7) := by decide
theorem test_offset_unmapped : Reg.ofOffset 0x008 = none := by decide

/-! ## Small states -/

/-- A 2D R8G8B8A8 texture (FORMAT 0x1A) of one slice, with default tile mode. -/
def texture (w h : Nat) (levels : Nat) : Descriptor where
  dim := 2
  width := BitVec.ofNat 32 w
  height := BitVec.ofNat 32 h
  depth := 1
  mipLevels := BitVec.ofNat 32 levels
  format := 0x1A
  aa := 0
  usage := 0
  tileMode := 0
  swizzle := 0

/-- The reset state with a descriptor. -/
def described (d : Descriptor) : State := { State.reset with desc := d }

/-- The next state of an outcome, where it has one. -/
def nextOf : Host.Outcome State Fault Refusal → Option State
  | .next t => some t
  | .fault _ => none
  | .refused _ => none

theorem eq_next_of_nextOf {o : Host.Outcome State Fault Refusal} {t : State} (h : nextOf o = some t) : o = .next t := by
  cases o <;> simp_all [nextOf]

/-- The state after a command (commands always have a next state). -/
def after (i : Instr) (s : State) : State := (nextOf (exec i s)).getD s

/-- A state with a valid layout: the state after CALC on a descriptor. -/
def laid (d : Descriptor) : State := after .calculate (described d)

/-- The operands of GEOM and XLATE. -/
def aimed (s : State) (level slice x y : Nat) : State :=
  { s with xl := ⟨BitVec.ofNat 32 level, BitVec.ofNat 32 slice, BitVec.ofNat 32 x, BitVec.ofNat 32 y⟩ }

/-- The reset state with a compressed block in BC_IN. -/
def blocked (w0 w1 w2 w3 : Word) : State := { State.reset with bcIn := #v[w0, w1, w2, w3] }

/-- A 3D surface of 64 × 64 × 8 elements (V-CALC-7). -/
def volume : Descriptor := { texture 64 64 2 with dim := 6, depth := 8 }

/-! ## One step of each command -/

/-- Rule R200's worked example (V-NOP-1): ERR 7 with a valid layout becomes STATUS 0x10. -/
theorem test_nop : (after .nop { State.reset with err := 7, layoutValid := true }).statusWord = 0x10 := by decide

/-- V-CALC-20: degrade at level 2, carry 0x700. -/
theorem test_calc_carry :
    ((laid { texture 64 32 2 with swizzle := 0x700 }).layout.mipOffset.toList.take 6,
      (laid { texture 64 32 2 with swizzle := 0x700 }).desc.swizzle)
    = ([0, 3840, 4352, 4608, 4864, 5120], 0x00020700) := by decide +kernel

/-- V-CALC-1 and the fallback of V-CALC-4. -/
theorem test_calc_default_mode :
    ((laid (texture 64 64 1)).desc.tileMode, (laid (texture 64 64 1)).layout.imageSize,
      (laid (texture 8 8 0)).desc.tileMode) = (4, 16384, 2) := by decide +kernel

/-- V-GEOM-1: level 4 of the 256 × 256 chain. -/
theorem test_geom_level4 :
    (after .geom (aimed (laid (texture 256 256 9)) 4 0 0 0)).lv = ⟨2, 16, 16, 1, 1024, 256⟩ := by decide +kernel

/-- V-GEOM-4: level 9 does not exist. -/
theorem test_geom_missing_level :
    (after .geom (aimed (laid (texture 256 256 9)) 9 0 0 0)).statusWord = 0x17 := by decide +kernel

/-- V-XL-5 and V-XL-5s2: the macro formula, with seed 0 and with seed 7. -/
theorem test_xlate_macro :
    ((after .xlate (aimed (laid (texture 64 64 1)) 0 0 37 21)).xlOffset,
      (after .xlate (aimed (laid { texture 64 64 1 with swizzle := 0x700 }) 0 0 37 21)).xlOffset)
    = (0x1CB4, 7092) := by decide +kernel

/-- V-XL-13e and V-XL-12: slice 2 of an array in mode 2 and in mode 16. -/
theorem test_xlate_slices :
    ((after .xlate (aimed (laid { texture 64 64 1 with dim := 3, depth := 3, tileMode := 2 }) 0 2 5 5)).xlOffset,
      (after .xlate (aimed (laid { texture 64 64 1 with dim := 3, depth := 3, tileMode := 16 }) 0 2 5 5)).xlOffset)
    = (32948, 34068) := by decide +kernel

/-- V-BC1-3: the four-colour palette and the shift expansion. -/
theorem test_bc1_four_colours :
    (after .bc1 (blocked 0x0000FFFF 0xE4E4E4E4 0 0)).bcOut.toList.take 4
    = [0xFFF8FCF8, 0xFF000000, 0xFFA5A8A5, 0xFF525452] := by decide +kernel

/-- V-BC1-5: equal endpoints take the palette with a transparent slot 3. -/
theorem test_bc1_equal_endpoints :
    (after .bc1 (blocked 0x12341234 0x1B1B1B1B 0 0)).bcOut.toList.take 4
    = [0x00000000, 0xFFA04410, 0xFFA04410, 0xFFA04410] := by decide +kernel

/-- V-BC3-1: alpha from the first half, the forced palette of the second. -/
theorem test_bc3 :
    (after .bc3 (blocked 0xC68800FF 0xFAC688FA 0xFFFF0000 0xE4E4E4E4)).bcOut.toList.take 8
    = [0xFF000000, 0x00F8FCF8, 0xDA525452, 0xB6A5A8A5, 0x91000000, 0x6DF8FCF8, 0x48525452, 0x24A5A8A5] := by
  decide +kernel

/-- V-BC4-2: equal endpoints, and the second index group. -/
theorem test_bc4_equal_endpoints :
    (after .bc4 (blocked 0xFFFF8080 0x000000FF 0 0)).bcOut.toList
    = List.replicate 8 0xFF0000FF ++ List.replicate 8 0xFF000080 := by decide +kernel

/-- V-BC5-1: red from the first half, green from the second. -/
theorem test_bc5 :
    (after .bc5 (blocked 0xC68800FF 0xFAC688FA 0xFFFFFF00 0xFFFFFFFF)).bcOut.toList.take 4
    = [0xFF00FFFF, 0xFF00FF00, 0xFF00FFDA, 0xFF00FFB6] := by decide +kernel

/-- V-ERR-3: a reserved word after CALC changes only ERR. -/
theorem test_step_reserved_word :
    step ((laid (texture 64 64 1)).withFetchWord 32 0x100) = .next { laid (texture 64 64 1) with err := 8 } := 
  eq_next_of_nextOf (by decide +kernel)

/-- The first step after reset runs the command that stands at the port. -/
theorem test_step_first_command :
    nextOf (step (State.reset.withFetchWord 32 0x2)) = nextOf (exec .geom State.reset) := by decide +kernel

/-! ## Witnesses: the hypotheses of the statements can be met -/

theorem wit_ReservedWordRaisesBadCommand :
    (0x00000032 : Word).toNat ∉ [0x00, 0x01, 0x02, 0x03, 0x31, 0x33, 0x34, 0x35] ∧
    (0xFFFFFFFF : Word).toNat ∉ [0x00, 0x01, 0x02, 0x03, 0x31, 0x33, 0x34, 0x35] := by decide

theorem wit_StepRunsTheDecodedCommand :
    (State.reset.withFetchWord 32 0x35).pending = .write 0x000 4 0x35 :: [] ∧ decode 0x35 = some .bc5 := by decide

theorem wit_StepRunsTheDecodedCommand_next :
    step (State.reset.withFetchWord 32 0x00) = .next State.reset := eq_next_of_nextOf (by decide +kernel)

theorem wit_CommandsIgnoreThePort : exec .nop State.reset = .next State.reset := eq_next_of_nextOf (by decide +kernel)

theorem wit_StepServesTheNextEvent :
    State.reset.pending = [] ∧ (State.reset.withFetchWord 32 0).pending = .write 0x000 4 0 :: [] := by decide

theorem wit_StepServesTheNextEvent_served : servePort .reset State.reset = .next State.reset :=
  eq_next_of_nextOf (by decide +kernel)

theorem wit_OnlyMisshapenAccessesAreRefused :
    (3 ≠ 4 ∨ (0x000 : BitVec 9).toNat % 4 ≠ 0) ∧ (4 ≠ 4 ∨ (0x1FF : BitVec 9).toNat % 4 ≠ 0) ∧
      (4 = 4 ∧ (0x1FC : BitVec 9).toNat % 4 = 0) := by decide

theorem wit_SafePortRunsForever : (State.reset.withFetchWord 32 0xFF).PortSafe := by
  unfold State.PortSafe; decide

/-- An unmapped word between registers, and the last word of the register space. -/
theorem wit_UnmappedOffsets :
    ((0x008 : BitVec 9).toNat % 4 = 0 ∧ ∀ r : Reg, r.offset ≠ 0x008) ∧
    ((0x1FC : BitVec 9).toNat % 4 = 0 ∧ ∀ r : Reg, r.offset ≠ 0x1FC) := by
  have h : ∀ r ∈ Reg.all, r.offset ≠ 0x008 ∧ r.offset ≠ 0x1FC := by decide
  exact ⟨⟨by decide, fun r => (h r r.mem_all).1⟩, ⟨by decide, fun r => (h r r.mem_all).2⟩⟩

theorem wit_HostWriteStoresItsRegisterOnly :
    Reg.dim.storedBits = some 0x7 ∧ (Reg.bcIn 3).storedBits = some 0xFFFFFFFF := by decide

theorem wit_HostWriteToReadOnlyIsIgnored :
    (Reg.status.storedBits = none ∧ Reg.status ≠ .cmd) ∧ ((Reg.bcOut 15).storedBits = none ∧ Reg.bcOut 15 ≠ .cmd) := by
  decide

theorem wit_DescriptorWriteLeavesStaleResults : Reg.isDescriptor .dim = true ∧ Reg.isDescriptor .swizzle = true := by
  decide

theorem wit_LayoutValidWriters :
    servePort (.write 0x000 4 0x00000001) State.reset = .next { State.reset with err := 4 } ∧
    servePort (.write Reg.width.offset 4 64) { State.reset with layoutValid := true }
      = .next (described { State.reset.desc with width := 64 }) ∧
    servePort .reset State.reset = .next State.reset ∧
    servePort (.read 0x004 4) State.reset = .next { State.reset with readData := some 0 } := by
  refine ⟨?_, ?_, ?_, ?_⟩ <;> exact eq_next_of_nextOf (by decide +kernel)

theorem wit_EveryWriteIsIdempotent :
    servePort (.write 0x000 4 0x00000001) (described (texture 64 64 1)) = .next (laid (texture 64 64 1)) := 
  eq_next_of_nextOf (by decide +kernel)

theorem wit_BlockWindow :
    (0x1000 ≤ 0x11FF ∧ 0x11FF < 0x1000 + 512) ∧ ¬ (0x1000 ≤ 0x1200 ∧ 0x1200 < 0x1000 + 512) ∧
      ¬ (0x1000 ≤ 0x0FFF ∧ 0x0FFF < 0x1000 + 512) := by decide

theorem wit_HostLinesEncode : readEvent .status ∈ HostLine.encode .check ∧ 0xFFFFFFFF < 2 ^ 32 ∧ 0 < 2 ^ 32 := by decide

theorem wit_ErrorsOfEachCommand : exec .geom State.reset = .next { State.reset with err := 9 } := 
  eq_next_of_nextOf (by decide +kernel)

theorem wit_FailingCommandWritesStatusOnly :
    exec .xlate State.reset = .next { State.reset with err := 9 } ∧ (9 : BitVec 4) ≠ 0 := by
  exact ⟨eq_next_of_nextOf (by decide +kernel), by decide⟩

theorem wit_LayoutNotValidStops : State.reset.layoutValid = false := by decide

theorem wit_MissingLevelStops :
    (aimed (laid (texture 256 256 9)) 9 0 0 0).layoutValid = true ∧
      (aimed (laid (texture 256 256 9)) 9 0 0 0).desc.mipLevels.toNat
        ≤ (aimed (laid (texture 256 256 9)) 9 0 0 0).xl.level.toNat := by decide +kernel

/-- A valid layout that CALC has computed is coherent, whatever the operands and LV_* hold. -/
theorem laid_coherent (d : Descriptor) (l s x y : Nat)
    (h : ((laid d).desc.calculate specParams = .ok ((laid d).desc.layoutResult specParams)) ∧
      ((laid d).desc.layoutResult specParams).newDesc (laid d).desc = (laid d).desc ∧
      ((laid d).desc.layoutResult specParams).regs = (laid d).layout) :
    (aimed (laid d) l s x y).LayoutCoherent := fun _ => ⟨_, h⟩

theorem wit_StepKeepsTheInvariant :
    (aimed (laid volume) 0 0 0 0).ErrLegal ∧ (aimed (laid volume) 0 0 0 0).LayoutCoherent ∧
      (aimed (laid volume) 0 0 0 0).layoutValid = true :=
  ⟨by unfold State.ErrLegal; decide +kernel, laid_coherent _ _ _ _ _ (by decide +kernel), by decide +kernel⟩

/-- The longest chain, of fourteen levels. -/
theorem wit_ValidLayoutIsUsable :
    (aimed (laid (texture 0x3FFF 0x3FFF 2)) 0 0 0 0).LayoutCoherent ∧
      (aimed (laid (texture 0x3FFF 0x3FFF 2)) 0 0 0 0).layoutValid = true ∧
      13 < (aimed (laid (texture 0x3FFF 0x3FFF 2)) 0 0 0 0).desc.mipLevels.toNat :=
  ⟨laid_coherent _ _ _ _ _ (by decide +kernel), by decide +kernel, by decide +kernel⟩

theorem wit_StepKeepsTheInvariant_next : step State.reset = .next State.reset := rfl

/-- The largest extents that pass, the smallest that do not, and the errors in their order. -/
theorem wit_CalcChecksInOrder :
    tooBig (texture 0x4000 64 1) ∧ tooBig { texture 4 4 1 with dim := 6, depth := 0x4000 } ∧
    (¬ tooBig (texture 0x3FFF 0x3FFF 1) ∧ ¬ supported { texture 0x3FFF 0x3FFF 1 with format := 0x32 }) ∧
    (¬ tooBig (texture 0 0 1) ∧ supported { texture 0 0 1 with tileMode := 5 } ∧
      ¬ modeAssigned { texture 0 0 1 with tileMode := 5 }) := by
  unfold tooBig supported modeAssigned; decide

/-- V-CALC-34 and V-CALC-35: a surface of 2^32 bytes or more. -/
theorem wit_CalcBoundCheck :
    (checked { texture 0x3FFF 0x3FFF 1 with dim := 6, depth := 0x3FFF, format := 0x35 } ∧
      ¬ bounded (Descriptor.layoutResult specParams
        { texture 0x3FFF 0x3FFF 1 with dim := 6, depth := 0x3FFF, format := 0x35 })) ∧
    (checked { texture 0x3FFF 0x3FFF 1 with dim := 3, depth := 64 } ∧
      ¬ bounded (Descriptor.layoutResult specParams { texture 0x3FFF 0x3FFF 1 with dim := 3, depth := 64 })) := by
  unfold checked tooBig supported modeAssigned bounded; decide +kernel

/-- V-CALC-21, the largest 2D BC5 surface, and V-CALC-11, no extent at all. -/
theorem wit_CalcWritesTheLayout :
    (checked { texture 0x3FFF 0x3FFF 2 with format := 0x35 } ∧
      bounded (Descriptor.layoutResult specParams { texture 0x3FFF 0x3FFF 2 with format := 0x35 })) ∧
    (checked (texture 0 0 5) ∧ bounded ((texture 0 0 5).layoutResult specParams)) := by
  unfold checked tooBig supported modeAssigned bounded; decide +kernel

theorem wit_CalcResolvesTheTileMode :
    { texture 8 8 1 with tileMode := 4 }.tileMode ≠ 0 ∧ (texture 8 8 1).tileMode = 0 := by decide

theorem wit_MipCountIsTheFullChain :
    (texture 64 64 1).mipLevels.toNat ≤ 1 ∧ 1 < (texture 64 64 2).mipLevels.toNat := by decide

/-- V-CALC-11: a request above 1 with no extent at all gives one level. -/
theorem wit_MipCountIsTheFullChain_zero :
    1 < (texture 0 0 5).mipLevels.toNat ∧ (texture 0 0 5).width.toNat = 0 ∧ (texture 0 0 5).height.toNat = 0 ∧
      ((texture 0 0 5).layoutResult specParams).levels = 1 := by decide +kernel

/-- No power of two lies above `2^n` and below `2^(n+1)`. -/
theorem not_pow_between {v n k m : Nat} (hv : 2 ^ n < v) (hm : m ≤ 2 ^ (n + 1)) : ¬ (v ≤ 2 ^ k ∧ 2 ^ k < m) := by
  rintro ⟨h, hk⟩
  have h1 : n < k := (Nat.pow_lt_pow_iff_right (by omega)).mp (hv.trans_le h)
  have h2 : k < n + 1 := (Nat.pow_lt_pow_iff_right (by omega)).mp (hk.trans_le hm)
  omega

theorem wit_AlignmentTable : 16 ∈ [16, 32, 64, 128] ∧ 8 ∈ [1, 2, 4, 8] := by decide

theorem wit_GeometryIsPadded :
    supported (texture 64 64 1) ∧ TileMode.isConcrete .thin2D = true ∧
      ((texture 64 64 1).levelGeom specParams .thin2D 0).mode = .thin2D ∧
      ((texture 64 64 7).levelGeom specParams .thin2D 6).mode = .thin1D := by
  unfold supported; decide +kernel

/-- A level that is not macro-tiled, and each threshold from both sides: at level 1, 16 and 17 elements of width, 8 and 9
of height, 2 and 3 slices. -/
theorem wit_MacroTilingNeverReturns :
    (modeAt (texture 256 256 9) .thin2D 4).isMacro = false ∧
    (smallerThanBlock (texture 32 18 2) 1 ∧ ¬ smallerThanBlock (texture 34 18 2) 1) ∧
    (smallerThanBlock (texture 34 16 2) 1) ∧
    (tooFewSlices { volume with depth := 4 } 1 ∧ ¬ tooFewSlices { volume with depth := 6 } 1) := by
  have w16 : nextPow2Below ((texture 32 18 2).elemWidth 1) 32 := ⟨4, by decide⟩
  have h8 : nextPow2Below ((texture 34 16 2).elemHeight 1) 16 := ⟨3, by decide⟩
  have s2 : nextPow2Below ((Descriptor.levelSlices { volume with depth := 4 }) 1) 4 := ⟨1, by decide⟩
  have w17 : ¬ nextPow2Below ((texture 34 18 2).elemWidth 1) 32 := fun ⟨k, h, hk⟩ =>
    not_pow_between (n := 4) (by decide) (by decide) ⟨h, hk⟩
  have h9 : ¬ nextPow2Below ((texture 34 18 2).elemHeight 1) 16 := fun ⟨k, h, hk⟩ =>
    not_pow_between (n := 3) (by decide) (by decide) ⟨h, hk⟩
  have s3 : ¬ nextPow2Below ((Descriptor.levelSlices { volume with depth := 6 }) 1) 4 := fun ⟨k, h, hk⟩ =>
    not_pow_between (n := 1) (by decide) (by decide) ⟨h, hk⟩
  exact ⟨by decide +kernel, ⟨.inl w16, fun h => h.elim w17 h9⟩, .inr h8, s2, s3⟩

/-- V-CALC-3 degrades at level 4, and level 8 is its last. -/
theorem wit_MipChainOffsets :
    degradesAt (texture 256 256 9) .thin2D 4 ∧ ¬ degradesAt (texture 256 256 9) .thin2D 8 ∧
      ((texture 256 256 9).layoutResult specParams).levels = 9 := by
  unfold degradesAt; decide +kernel

/-- The last level of a chain of nine, and the only mip level of a chain of two. -/
theorem wit_MipLevelsAreDisjoint :
    7 < ((texture 256 256 9).layoutResult specParams).offsets.length ∧
      ((texture 2 2 2).layoutResult specParams).offsets.length = 1 := by decide +kernel

theorem wit_SwizzleAfterCalc :
    ¬ tooBig (texture 256 256 9) ∧ degradesAt (texture 256 256 9) ((texture 256 256 9).layoutResult specParams).mode 4 ∧
      ((texture 8 8 1).layoutResult specParams).mode.isMacro = false ∧
      ((texture 64 64 1).layoutResult specParams).mode.isMacro = true ∧
      ((texture 64 64 1).layoutResult specParams).levels = 1 := by
  unfold tooBig degradesAt; decide +kernel

theorem wit_FormatUpperBitsAreIgnored :
    (0x0000041A : Word).toNat % 64 = (described (texture 64 64 1)).desc.format.toNat % 64 ∧
      exec .calculate (described (texture 64 64 1)) = .next (laid (texture 64 64 1)) :=
  ⟨by decide, eq_next_of_nextOf (by decide +kernel)⟩

/-- The last level of the chain. -/
theorem wit_GeomWritesTheLevel :
    (aimed (laid (texture 256 256 9)) 8 0 0 0).LayoutCoherent ∧ (aimed (laid (texture 256 256 9)) 8 0 0 0).LevelReady :=
  ⟨laid_coherent _ _ _ _ _ (by decide +kernel), by unfold State.LevelReady; decide +kernel⟩

theorem wit_GeomZeroReproducesTheLayout :
    (aimed (laid volume) 0 0 0 0).LayoutCoherent ∧ (aimed (laid volume) 0 0 0 0).LevelReady ∧
      (aimed (laid volume) 0 0 0 0).xl.level = 0 :=
  ⟨laid_coherent _ _ _ _ _ (by decide +kernel), by unfold State.LevelReady; decide +kernel, by decide +kernel⟩

theorem wit_GeomLevelFitsTheMipmap :
    (aimed (laid (texture 256 256 9)) 8 0 0 0).LayoutCoherent ∧ (aimed (laid (texture 256 256 9)) 8 0 0 0).LevelReady ∧
      (aimed (laid (texture 256 256 9)) 8 0 0 0).xl.level.toNat = (7 : Fin 13).val + 1 :=
  ⟨laid_coherent _ _ _ _ _ (by decide +kernel), by unfold State.LevelReady; decide +kernel, by decide +kernel⟩

/-- The operands of XLATE lie in the padded plane of the level. -/
abbrev Inside (s : State) : Prop :=
  s.xl.slice.toNat < s.levelHere.slices ∧ s.xl.x.toNat < s.levelHere.pitch ∧ s.xl.y.toNat < s.levelHere.height

/-- The last element of the plane. -/
theorem wit_XlateLinearSpecial :
    (aimed (laid { texture 64 64 1 with tileMode := 16 }) 0 0 63 63).LayoutCoherent ∧
    (aimed (laid { texture 64 64 1 with tileMode := 16 }) 0 0 63 63).LevelReady ∧
    (aimed (laid { texture 64 64 1 with tileMode := 16 }) 0 0 63 63).levelHere.mode = .linearSpecial ∧
    Inside (aimed (laid { texture 64 64 1 with tileMode := 16 }) 0 0 63 63) :=
  ⟨laid_coherent _ _ _ _ _ (by decide +kernel), by unfold State.LevelReady; decide +kernel, by decide +kernel,
    by decide +kernel⟩

/-- The first degraded level of a chain, and its last element. -/
theorem wit_XlateMicroTiled :
    (aimed (laid (texture 256 256 9)) 4 0 15 15).LayoutCoherent ∧
    (aimed (laid (texture 256 256 9)) 4 0 15 15).LevelReady ∧
    (aimed (laid (texture 256 256 9)) 4 0 15 15).levelHere.mode = .thin1D ∧
    Inside (aimed (laid (texture 256 256 9)) 4 0 15 15) :=
  ⟨laid_coherent _ _ _ _ _ (by decide +kernel), by unfold State.LevelReady; decide +kernel, by decide +kernel,
    by decide +kernel⟩

/-- A 1D-thick level of eight slices, and the last element of its last slice. -/
theorem wit_XlateMicroTiled_thick :
    (aimed (laid { volume with tileMode := 3 }) 0 7 63 63).LayoutCoherent ∧
    (aimed (laid { volume with tileMode := 3 }) 0 7 63 63).LevelReady ∧
    (aimed (laid { volume with tileMode := 3 }) 0 7 63 63).levelHere.mode = .thick1D ∧
    Inside (aimed (laid { volume with tileMode := 3 }) 0 7 63 63) :=
  ⟨laid_coherent _ _ _ _ _ (by decide +kernel), by unfold State.LevelReady; decide +kernel, by decide +kernel,
    by decide +kernel⟩

/-- The last element of the plane of V-CALC-1 with a seed. -/
theorem wit_XlateMacroTiled :
    (aimed (laid { texture 64 64 1 with swizzle := 0x700 }) 0 0 63 63).LayoutCoherent ∧
    (aimed (laid { texture 64 64 1 with swizzle := 0x700 }) 0 0 63 63).LevelReady ∧
    (aimed (laid { texture 64 64 1 with swizzle := 0x700 }) 0 0 63 63).levelHere.mode = .thin2D ∧
    Inside (aimed (laid { texture 64 64 1 with swizzle := 0x700 }) 0 0 63 63) :=
  ⟨laid_coherent _ _ _ _ _ (by decide +kernel), by unfold State.LevelReady; decide +kernel, by decide +kernel,
    by decide +kernel⟩

/-- V-XL-16 and V-XL-14a. -/
theorem wit_XlateWithoutFormulaStops :
    ((laid { texture 100 0 0 with dim := 0 }).LevelReady ∧
      (laid { texture 100 0 0 with dim := 0 }).levelHere.mode = .linearAligned) ∧
    ((laid volume).LevelReady ∧ (laid volume).levelHere.mode = .thick2D) := by
  unfold State.LevelReady; decide +kernel

/-- V-XL-7a, V-XL-7b and V-XL-7d: one past the last x, y and slice. -/
theorem wit_XlateOutsideThePlaneStops :
    (aimed (laid (texture 64 64 1)) 0 1 64 64).LevelReady ∧
    (aimed (laid (texture 64 64 1)) 0 1 64 64).levelHere.mode = .thin2D ∧
    (aimed (laid (texture 64 64 1)) 0 1 64 64).levelHere.slices = 1 ∧
    (aimed (laid (texture 64 64 1)) 0 1 64 64).levelHere.pitch = 64 ∧
    (aimed (laid (texture 64 64 1)) 0 1 64 64).levelHere.height = 64 := by
  unfold State.LevelReady; decide +kernel

/-- The successful XLATE of `XlateStaysInThePlane`, on a surface of 4 samples (V-XL-18). -/
theorem wit_XlateStaysInThePlane :
    (aimed (laid { texture 64 64 1 with dim := 4, aa := 2 }) 0 0 37 21).LayoutCoherent ∧
    exec .xlate (aimed (laid { texture 64 64 1 with dim := 4, aa := 2 }) 0 0 37 21)
      = .next (after .xlate (aimed (laid { texture 64 64 1 with dim := 4, aa := 2 }) 0 0 37 21)) ∧
    (after .xlate (aimed (laid { texture 64 64 1 with dim := 4, aa := 2 }) 0 0 37 21)).err = 0 :=
  ⟨laid_coherent _ _ _ _ _ (by decide +kernel), eq_next_of_nextOf (by decide +kernel), by decide +kernel⟩

theorem wit_XlateIsInjective :
    supported (texture 64 64 1) ∧ ((texture 64 64 1).levelGeom specParams .thin2D 0).mode.hasFormula = true ∧
    Geom.inPlane ((texture 64 64 1).levelGeom specParams .thin2D 0) 0 63 63 = true ∧
    (texture 64 64 1).elementOffset ((texture 64 64 1).levelGeom specParams .thin2D 0) 0 63 63 = some 14588 := by
  unfold supported; decide +kernel

theorem wit_XlateCoversThePlane :
    supported (texture 16 16 1) ∧ (texture 16 16 1).aa = 0 ∧
      ((texture 16 16 1).levelGeom specParams .thin1D 0).mode.hasFormula = true ∧
      255 < ((texture 16 16 1).levelGeom specParams .thin1D 0).pitch
        * ((texture 16 16 1).levelGeom specParams .thin1D 0).height
        * ((texture 16 16 1).levelGeom specParams .thin1D 0).slices := by
  unfold supported; decide +kernel

theorem wit_PixelIndexBits : (1 ∈ [1, 2, 4, 8, 16] ∧ 16 ∈ [1, 2, 4, 8, 16]) ∧ 0 < 64 ∧ 63 < 64 := by decide

/-- A SWIZZLE word with the same bits 10:8 on a 2D-thin1 level. -/
theorem wit_SeedAffectsMacroLevelsOnly :
    ((laid (texture 64 64 1)).levelHere.mode = .thin2D →
      (0xFFFFF8FF : Word).toNat / 256 % 8 = (laid (texture 64 64 1)).desc.swizzle.toNat / 256 % 8) ∧
    (laid (texture 64 64 1)).levelHere.mode = .thin2D ∧
    exec .xlate (laid (texture 64 64 1)) = .next (after .xlate (laid (texture 64 64 1))) ∧
    (after .xlate (laid (texture 64 64 1))).err = 0 :=
  ⟨fun _ => by decide +kernel, by decide +kernel, eq_next_of_nextOf (by decide +kernel), by decide +kernel⟩

/-- A SWIZZLE word with other bits 10:8 on a linear-special level. -/
theorem wit_SeedAffectsMacroLevelsOnly_linear :
    ((laid { texture 64 64 1 with tileMode := 16 }).levelHere.mode = .thin2D →
      (0x700 : Word).toNat / 256 % 8
        = (laid { texture 64 64 1 with tileMode := 16 }).desc.swizzle.toNat / 256 % 8) ∧
    (laid { texture 64 64 1 with tileMode := 16 }).levelHere.mode = .linearSpecial ∧
    exec .xlate (laid { texture 64 64 1 with tileMode := 16 })
      = .next (after .xlate (laid { texture 64 64 1 with tileMode := 16 })) ∧
    (after .xlate (laid { texture 64 64 1 with tileMode := 16 })).err = 0 :=
  ⟨fun h => absurd h (by decide +kernel), by decide +kernel, eq_next_of_nextOf (by decide +kernel), by decide +kernel⟩

theorem wit_InterpolationStaysBetween : (1 ≤ 1 ∧ 1 < 2) ∧ (1 ≤ 6 ∧ 6 < 7) := by decide

end Sys2Proof.Tests
end

/-! SUPPORT. The proofs of the family of 10_state.md: what the descriptor determines, what CALC keeps, and the
invariant. -/

namespace Sys2Proof.Machine

open Sys2Proof.Rules

/-! ## What the geometry of a descriptor depends on -/

/-- Two descriptors agree in all that the geometry of a level is computed from (rules R105 to R109): TILE_MODE,
MIP_LEVELS, USE, SWIZZLE and FORMAT[31:6] may differ. -/
structure Descriptor.SameShape (d d' : Descriptor) : Prop where
  dim : d'.dim = d.dim
  width : d'.width = d.width
  height : d'.height = d.height
  depth : d'.depth = d.depth
  formatCode : d'.formatCode = d.formatCode
  aa : d'.aa = d.aa

section
variable {d d' : Descriptor} (h : d.SameShape d')
include h

theorem Descriptor.SameShape.dimension_eq : d'.dimension = d.dimension := by
  unfold Descriptor.dimension; rw [h.dim]

theorem Descriptor.SameShape.bpp_eq : d'.bpp = d.bpp := by
  unfold Descriptor.bpp; rw [h.formatCode]

theorem Descriptor.SameShape.isBc_eq : d'.isBc = d.isBc := by
  unfold Descriptor.isBc; rw [h.formatCode]

theorem Descriptor.SameShape.elemWidth_eq (L : Nat) : d'.elemWidth L = d.elemWidth L := by
  unfold Descriptor.elemWidth Descriptor.inElements Descriptor.levelWidth; rw [h.isBc_eq, h.width]

theorem Descriptor.SameShape.elemHeight_eq (L : Nat) : d'.elemHeight L = d.elemHeight L := by
  unfold Descriptor.elemHeight Descriptor.inElements Descriptor.levelHeight
  rw [h.isBc_eq, h.dimension_eq, h.height]

theorem Descriptor.SameShape.levelGeom_eq (P : LayoutParams) (m : TileMode) (L : Nat) :
    d'.levelGeom P m L = d.levelGeom P m L :=
  levelGeom_congr P m L h.dim h.width h.height h.depth h.formatCode h.aa

theorem Descriptor.SameShape.mipWalk_eq (P : LayoutParams) (m : TileMode) (sw : Word) (n : Nat) :
    d'.mipWalk P m sw n = d.mipWalk P m sw n := by
  unfold Descriptor.mipWalk; simp only [h.levelGeom_eq]

end

/-! ## CALC's checks -/

/-- The checks of R101 pass: the extents are below 2^14, the format is supported, and the mode is assigned. -/
theorem calcCheck_eq_none_iff (d : Descriptor) :
    d.calcCheck = none ↔
      (d.width.toNat < 0x4000 ∧ d.height.toNat < 0x4000 ∧ (d.dimension = .d3 → d.depth.toNat < 0x4000)) ∧
        d.bpp ≠ 0 ∧ d.requestedMode.isAssigned = true := by
  unfold Descriptor.calcCheck
  split_ifs with hbig hbpp hmode
  · simp only [false_iff]
    rintro ⟨⟨hw, hh, hd⟩, -⟩
    rcases hbig with hbig | hbig | ⟨h3, hbig⟩
    · omega
    · omega
    · exact absurd hbig (Nat.not_le.2 (hd h3))
  · simp [hbpp]
  · simp [hmode]
  · simp only [not_or, not_and, Nat.not_le] at hbig
    simp only [true_iff]
    exact ⟨hbig, hbpp, by simpa using hmode⟩

/-- The checks of R101 that pass on one descriptor pass on another of the same shape, where TILE_MODE is assigned. -/
theorem Descriptor.SameShape.calcCheck_eq_none {d d' : Descriptor} (h : d.SameShape d') (hd : d.calcCheck = none)
    (hm : d'.requestedMode.isAssigned = true) : d'.calcCheck = none := by
  obtain ⟨hextents, hbpp, -⟩ := (calcCheck_eq_none_iff d).1 hd
  rw [calcCheck_eq_none_iff, h.width, h.height, h.depth, h.dimension_eq, h.bpp_eq]
  exact ⟨hextents, hbpp, hm⟩

/-- The errors of CALC's computation (rule R222). -/
theorem calculate_error {P : LayoutParams} {d : Descriptor} {e : ErrCode} (h : d.calculate P = .error e) :
    e = .imageTooBig ∨ e = .formatNotSupported ∨ e = .tileModeNotSupported := by
  unfold Descriptor.calculate at h
  split at h
  · next hc => cases h; exact calcCheck_some hc
  · split at h <;> simp_all

/-! ## The tile mode that CALC keeps -/

/-- An assigned mode other than the request `default` is concrete (rule R74). -/
theorem isConcrete_of_isAssigned {m : TileMode} (ha : m.isAssigned = true) (hd : m ≠ .default) :
    m.isConcrete = true := by
  cases m <;> simp_all [TileMode.isAssigned, TileMode.isConcrete]

theorem isAssigned_of_isConcrete {m : TileMode} (h : m.isConcrete = true) : m.isAssigned = true := by
  cases m <;> simp_all [TileMode.isAssigned, TileMode.isConcrete]

/-- CALC starts with a concrete mode (rules R100, R102). -/
theorem startMode_concrete {d : Descriptor} (h : d.requestedMode.isAssigned = true) :
    d.startMode.isConcrete = true := by
  unfold Descriptor.startMode Descriptor.defaultMode
  split_ifs with ha
  · rfl
  · rfl
  · rfl
  · exact isConcrete_of_isAssigned h (by simpa [Descriptor.isAuto] using ha)

/-- CALC keeps a concrete mode (rules R29, R110, R111). -/
theorem levelZero_mode_concrete {d : Descriptor} (h : d.requestedMode.isAssigned = true) :
    (d.levelZero specParams).mode.isConcrete = true := by
  rcases levelZero_cases d with ⟨hz, -⟩ | ⟨-, m, hm, -, hz⟩ <;> rw [hz]
  · exact startMode_concrete h
  · rcases hm with rfl | rfl <;> rfl

/-! ## The number of levels -/

theorem mipCount_of_le_one {d : Descriptor} (h : d.mipLevels.toNat ≤ 1) : d.mipCount = 1 := if_pos h

/-- Where every extent is below 2^n, there are at most `n` levels (rule R104). -/
theorem mipCount_le {d : Descriptor} {n : Nat} (hn : 1 ≤ n) (hw : d.width.toNat < 2 ^ n) (hh : d.height.toNat < 2 ^ n)
    (hd : d.dimension = .d3 → d.depth.toNat < 2 ^ n) : d.mipCount ≤ n := by
  have hheight : bitLen (if d.dimension.isOneDim then 1 else d.height.toNat) ≤ n := by
    rw [bitLen_le_iff]
    split
    · exact Nat.one_lt_two_pow (by omega)
    · exact hh
  have hdepth : (if d.dimension = .d3 then bitLen d.depth.toNat else 0) ≤ n := by
    split
    · next h3 => exact (bitLen_le_iff _ _).2 (hd h3)
    · exact Nat.zero_le n
  unfold Descriptor.mipCount
  split
  · exact hn
  · exact max_le (max_le (max_le ((bitLen_le_iff _ _).2 hw) hheight) hdepth) hn

/-- CALC's extent check leaves at most 14 levels (the inference of R104). -/
theorem mipCount_le_of_checked {d : Descriptor} (h : d.calcCheck = none) : d.mipCount ≤ 14 := by
  obtain ⟨⟨hw, hh, hd⟩, -⟩ := (calcCheck_eq_none_iff d).1 h
  exact mipCount_le (by omega) hw hh hd

/-- Beyond the distinction between a request up to 1 and a larger one, MIP_LEVELS does not count (rule R104). -/
theorem Descriptor.SameShape.mipCount_eq {d d' : Descriptor} (h : d.SameShape d')
    (hr : d'.mipLevels.toNat ≤ 1 ↔ d.mipLevels.toNat ≤ 1) : d'.mipCount = d.mipCount := by
  unfold Descriptor.mipCount
  simp only [hr, h.dimension_eq, h.width, h.height, h.depth]

/-- The number of levels, written back as the request, asks for the same number again (rule R119). -/
theorem Descriptor.SameShape.mipCount_eq_of_writeback {d d' : Descriptor} (h : d.SameShape d')
    (hl : d'.mipLevels.toNat = d.mipCount) : d'.mipCount = d.mipCount := by
  by_cases hone : d.mipCount ≤ 1
  · have := one_le_mipCount d
    rw [mipCount_of_le_one (by omega)]
    omega
  · have hreq : ¬ d.mipLevels.toNat ≤ 1 := fun hle => hone (mipCount_of_le_one hle).le
    exact h.mipCount_eq (by omega)

/-! ## SWIZZLE -/

@[simp] theorem clearDegrade_clearDegrade (sw : Word) : clearDegrade (clearDegrade sw) = clearDegrade sw := by
  simp [clearDegrade, BitVec.and_assoc]

/-- Bits put into 23:16 are cleared again. -/
theorem clearDegrade_or {x : Word} (hx : clearDegrade x = 0) (sw : Word) :
    clearDegrade (clearDegrade sw ||| x) = clearDegrade sw := by
  unfold clearDegrade at hx ⊢
  rw [BitVec.and_or_distrib_right, hx, BitVec.and_assoc, BitVec.and_self]
  exact BitVec.or_zero

/-- The degrade stamp of a level below 32 writes bits 23:16 only (rule R115). -/
@[simp] theorem clearDegrade_stampDegrade (sw : Word) {L : Nat} (hL : L < 32) :
    clearDegrade (stampDegrade sw L) = clearDegrade sw := by
  have hbits : ∀ L < 32, clearDegrade (BitVec.ofNat 32 (L <<< 16)) = 0 := by decide
  exact clearDegrade_or (hbits L hL) sw

/-- `InitSwizzle` writes bits 23:16 only (rule R103). -/
@[simp] theorem clearDegrade_initSwizzle (P : LayoutParams) (sw : Word) (m : TileMode) :
    clearDegrade (initSwizzle P sw m) = clearDegrade sw := by
  have hbits : ∀ k : BitVec 4, clearDegrade (k.setWidth 32 <<< 16) = 0 := by decide
  unfold initSwizzle
  split
  · exact clearDegrade_or (hbits P.marker) sw
  · exact clearDegrade_clearDegrade sw

/-- `InitSwizzle` reads no bit of 23:16 (rule R103). -/
theorem initSwizzle_congr (P : LayoutParams) {sw sw' : Word} (m : TileMode) (h : clearDegrade sw' = clearDegrade sw) :
    initSwizzle P sw' m = initSwizzle P sw m := by
  unfold initSwizzle; rw [h]

theorem initSwizzle_of_not_isMacro (P : LayoutParams) (sw : Word) {m : TileMode} (h : m.isMacro = false) :
    initSwizzle P sw m = clearDegrade sw := by
  simp [initSwizzle, h]

/-- The swizzle word of level 0 is one that `InitSwizzle` leaves as it is (rules R103, R111). -/
theorem initSwizzle_levelZero (d : Descriptor) :
    initSwizzle specParams (d.levelZero specParams).swizzle (d.levelZero specParams).mode
      = (d.levelZero specParams).swizzle := by
  rcases levelZero_cases d with ⟨hz, -⟩ | ⟨-, m, hm, -, hz⟩ <;> rw [hz]
  · exact initSwizzle_congr _ _ (clearDegrade_initSwizzle _ _ _)
  · have hmicro : m.isMacro = false := by rcases hm with rfl | rfl <;> rfl
    simp [initSwizzle_of_not_isMacro _ _ hmicro]

/-- The walk writes bits 23:16 of SWIZZLE only (rule R115). -/
theorem clearDegrade_mipWalk (P : LayoutParams) (d : Descriptor) (m : TileMode) (sw : Word) {n : Nat} (h1 : 1 ≤ n)
    (hn : n ≤ 32) : clearDegrade (d.mipWalk P m sw n).swizzle = clearDegrade sw := by
  induction n, h1 using Nat.le_induction with
  | base => rfl
  | succ n h1 ih =>
    rw [mipWalk_succ P d m sw h1]
    simp only [Walk.step, Walk.swizzleAt]
    split
    · rw [clearDegrade_stampDegrade _ (by omega), ih (by omega)]
    · exact ih (by omega)

/-! ## A second CALC computes the same layout -/

/-- CALC rewrites nothing that the geometry depends on (rule R256). -/
theorem newDesc_sameShape (r : LayoutResult) (d : Descriptor) : d.SameShape (r.newDesc d) :=
  ⟨rfl, rfl, rfl, rfl, rfl, rfl⟩

/-- Level 0 of a descriptor with a concrete request: that mode, without the adjustments (rules R110, R111). -/
theorem levelZero_of_concrete {d : Descriptor} (h : d.requestedMode.isConcrete = true) :
    d.levelZero specParams =
      { mode := d.requestedMode, geom := d.levelGeom specParams d.requestedMode 0,
        swizzle := initSwizzle specParams d.swizzle d.requestedMode } := by
  have hauto : d.isAuto = false := by
    unfold Descriptor.isAuto
    cases hm : d.requestedMode <;> simp_all [TileMode.isConcrete]
  rcases levelZero_cases d with ⟨hz, -⟩ | ⟨⟨ha, -⟩, -⟩
  · simpa [Descriptor.startMode, hauto] using hz
  · simp [hauto] at ha

section
variable {d : Descriptor} (hc : d.calcCheck = none)
include hc

/-- The mode that a successful CALC writes back is the one it has computed with (rules R29, R112). -/
theorem newDesc_requestedMode :
    ((d.layoutResult specParams).newDesc d).requestedMode = (d.levelZero specParams).mode := by
  obtain ⟨-, -, hassigned⟩ := (calcCheck_eq_none_iff d).1 hc
  exact TileMode.ofCode_code_of_concrete (levelZero_mode_concrete hassigned)

/-- MIP_LEVELS, as CALC writes it back, holds the number of levels whole (rule R100). -/
theorem newDesc_mipLevels_toNat : ((d.layoutResult specParams).newDesc d).mipLevels.toNat = d.mipCount := by
  have hcount := mipCount_le_of_checked hc
  rw [LayoutResult.newDesc_mipLevels, BitVec.toNat_ofNat]
  exact Nat.mod_eq_of_lt (by simp only [Descriptor.layoutResult]; omega)

/-- Level 0 comes out the same from the descriptor that CALC writes back (rule R119). -/
theorem levelZero_newDesc :
    ((d.layoutResult specParams).newDesc d).levelZero specParams = d.levelZero specParams := by
  obtain ⟨-, -, hassigned⟩ := (calcCheck_eq_none_iff d).1 hc
  have hmode := newDesc_requestedMode hc
  have hshape := newDesc_sameShape (d.layoutResult specParams) d
  have hsw : initSwizzle specParams (d.layoutResult specParams).swizzle (d.levelZero specParams).mode
      = (d.levelZero specParams).swizzle := by
    have hcount := mipCount_le_of_checked hc
    exact (initSwizzle_congr _ _ (clearDegrade_mipWalk _ _ _ _ (one_le_mipCount d) (by omega))).trans
      (initSwizzle_levelZero d)
  rw [levelZero_of_concrete (by rw [hmode]; exact levelZero_mode_concrete hassigned), hmode, hshape.levelGeom_eq,
    ← levelZero_geom d, LayoutResult.newDesc_swizzle, hsw]

/-- The layout comes out the same from the descriptor that CALC writes back (rule R119). -/
theorem layoutResult_newDesc :
    ((d.layoutResult specParams).newDesc d).layoutResult specParams = d.layoutResult specParams := by
  have hshape := newDesc_sameShape (d.layoutResult specParams) d
  have hcount := hshape.mipCount_eq_of_writeback (newDesc_mipLevels_toNat hc)
  have hz := levelZero_newDesc hc
  rw [Descriptor.layoutResult, hz, hcount, hshape.mipWalk_eq]
  rfl

end

/-- A second CALC succeeds with the same layout (rule R119). -/
theorem calculate_newDesc {d : Descriptor} {r : LayoutResult} (h : d.calculate specParams = .ok r) :
    (r.newDesc d).calculate specParams = .ok r := by
  obtain ⟨hc, hfits, rfl⟩ := (calculate_ok_iff _ _ _).1 h
  obtain ⟨-, -, hassigned⟩ := (calcCheck_eq_none_iff d).1 hc
  have hsame := layoutResult_newDesc hc
  refine (calculate_ok_iff _ _ _).2
    ⟨(newDesc_sameShape _ d).calcCheck_eq_none hc ?_, by rw [hsame]; exact hfits, hsame.symm⟩
  rw [newDesc_requestedMode hc]
  exact isAssigned_of_isConcrete (levelZero_mode_concrete hassigned)

/-! ## The invariant -/

/-- The errors of the opening of GEOM and XLATE (rule R222). -/
theorem selectLevel_error {s : State} {e : ErrCode} (h : s.selectLevel = .error e) :
    e = .layoutNotValid ∨ e = .coordOutOfRange := by
  rcases selectLevel_cases s with ⟨-, hs⟩ | ⟨-, -, hs⟩ | ⟨-, -, hs⟩ <;> simp_all

/-- ERR is legal where it holds any code but the three that no command raises (rule R222). -/
theorem State.errLegal_of_code {s : State} {e : ErrCode} (h : s.err = e.code)
    (he : e ∉ [ErrCode.imageNotAligned, .imageSizeMismatch, .outOfMemory]) : s.ErrLegal := by
  unfold State.ErrLegal
  rw [h]
  revert he
  cases e <;> decide

/-- After any command ERR is legal (rule R222). -/
theorem exec_errLegal {i : Instr} {s t : State} (h : exec i s = .next t) : t.ErrLegal := by
  rcases exec_cases i s with ⟨-, e, he, hx⟩ | ⟨-, r, -, hx⟩ | ⟨-, e, he, hx⟩ | ⟨-, g, -, hx⟩ | ⟨-, e, he, hx⟩ |
      ⟨-, g, off, -, hx⟩ | ⟨-, t', hx⟩ | ⟨-, hx⟩ <;> rw [hx] at h <;> cases h
  · exact State.errLegal_of_code rfl (by rcases calculate_error he with rfl | rfl | rfl <;> decide)
  · exact State.errLegal_of_code (e := .ok) rfl (by decide)
  · exact State.errLegal_of_code rfl (by rcases selectLevel_error he with rfl | rfl <;> decide)
  · exact State.errLegal_of_code (e := .ok) rfl (by decide)
  · exact State.errLegal_of_code rfl (by rcases translate_error he with rfl | rfl | rfl <;> decide)
  all_goals exact State.errLegal_of_code (e := .ok) rfl (by decide)

/-- Coherence speaks of LAYOUT_VALID, the descriptor and the computed registers only. -/
theorem State.LayoutCoherent.of_eq {s t : State} (h : s.LayoutCoherent) (hv : t.layoutValid = s.layoutValid)
    (hd : t.desc = s.desc) (hl : t.layout = s.layout) : t.LayoutCoherent := by
  unfold State.LayoutCoherent at h ⊢; rwa [hv, hd, hl]

theorem State.layoutCoherent_of_not_valid {s : State} (h : s.layoutValid = false) : s.LayoutCoherent :=
  fun hv => absurd hv (by simp [h])

/-- A successful CALC leaves a coherent layout (rules R41, R119). -/
theorem writeLayout_layoutCoherent {s : State} {r : LayoutResult} (h : s.desc.calculate specParams = .ok r) :
    (s.writeLayout r).succeed.LayoutCoherent :=
  fun _ => ⟨r, calculate_newDesc h, rfl, rfl⟩

/-- Every command keeps the layout coherent. -/
theorem exec_layoutCoherent {i : Instr} {s t : State} (hs : s.LayoutCoherent) (h : exec i s = .next t) :
    t.LayoutCoherent := by
  rcases exec_cases i s with ⟨-, e, -, hx⟩ | ⟨-, r, hr, hx⟩ | ⟨-, e, -, hx⟩ | ⟨-, g, -, hx⟩ | ⟨-, e, -, hx⟩ |
      ⟨-, g, off, -, hx⟩ | ⟨-, t', hx⟩ | ⟨-, hx⟩ <;> rw [hx] at h <;> cases h
  · exact State.layoutCoherent_of_not_valid rfl
  · exact writeLayout_layoutCoherent hr
  all_goals exact hs.of_eq rfl rfl rfl

/-- A host write to a register other than CMD keeps the layout coherent: one of the descriptor invalidates it
(rules R41, R255). -/
theorem hostWrite_layoutCoherent {s : State} (hs : s.LayoutCoherent) (v : Word) (r : Reg) :
    (s.hostWrite v r).LayoutCoherent := by
  rcases hostWrite_cases s v r with ⟨d, h⟩ | ⟨o, h⟩ | ⟨b, h⟩ | h <;> rw [h]
  · exact State.layoutCoherent_of_not_valid rfl
  · exact hs.of_eq rfl rfl rfl
  · exact hs.of_eq rfl rfl rfl
  · exact hs

/-- Serving one event keeps the invariant. -/
theorem servePort_invariant {e : PortEvent} {s t : State} (herr : s.ErrLegal) (hcoh : s.LayoutCoherent)
    (h : servePort e s = .next t) : t.ErrLegal ∧ t.LayoutCoherent := by
  rcases servePort_cases e s with ⟨-, hx⟩ | ⟨-, hx⟩ | ⟨o, -, hx⟩ | ⟨w, i, -, -, hx⟩ | ⟨w, -, -, hx⟩ |
      ⟨r, v, -, -, hx⟩ | ⟨o, v, -, -, hx⟩ <;> rw [hx] at h
  · cases h
  · cases h
    exact ⟨State.errLegal_of_code (e := .ok) rfl (by decide), State.layoutCoherent_of_not_valid rfl⟩
  · cases h
    exact ⟨herr, hcoh.of_eq rfl rfl rfl⟩
  · exact ⟨exec_errLegal h, exec_layoutCoherent hcoh h⟩
  · cases h
    exact ⟨State.errLegal_of_code (e := .badCommand) rfl (by decide), hcoh.of_eq rfl rfl rfl⟩
  · cases h
    obtain ⟨herr', -⟩ := hostWrite_frame s v r
    exact ⟨by unfold State.ErrLegal; rwa [herr'], hostWrite_layoutCoherent hcoh v r⟩
  · cases h
    exact ⟨herr, hcoh⟩

/-- Settles O27, from what serving the next event keeps. -/
theorem stepKeepsTheInvariant : Obligations.StepKeepsTheInvariant := by
  unfold Obligations.StepKeepsTheInvariant
  rintro s t ⟨herr, hcoh⟩ h
  cases hp : s.pending with
  | nil =>
    rw [step_idle hp] at h
    cases h
    exact ⟨herr, hcoh⟩
  | cons e rest =>
    rw [step_cons hp] at h
    exact servePort_invariant (s := { s with pending := rest }) herr (hcoh.of_eq rfl rfl rfl) h

end Sys2Proof.Machine

/-! SUPPORT. The proofs of the family of 10_state.md: the geometry of a level, and what CALC and GEOM write. -/

namespace Sys2Proof.Machine

open Sys2Proof.Rules

/-! ## The fields of the descriptor as numbers -/

theorem formatCode_toNat (d : Descriptor) : d.formatCode.toNat = d.format.toNat % 64 := by
  unfold Descriptor.formatCode
  rw [BitVec.extractLsb'_toNat]
  rfl

/-- The bits per element by the format code (rule R39). -/
theorem bpp_eq_of_format (d : Descriptor) :
    d.bpp =
      (if d.format.toNat % 64 ∈ [0x07, 0x08] then 16
      else if d.format.toNat % 64 = 0x1A then 32
      else if d.format.toNat % 64 ∈ [0x31, 0x34] then 64
      else if d.format.toNat % 64 ∈ [0x33, 0x35] then 128 else 0) := by
  have htable : ∀ c : BitVec 6, formatBpp c =
      (if c.toNat ∈ [0x07, 0x08] then 16
      else if c.toNat = 0x1A then 32
      else if c.toNat ∈ [0x31, 0x34] then 64
      else if c.toNat ∈ [0x33, 0x35] then 128 else 0) := by decide
  rw [← formatCode_toNat]
  exact htable d.formatCode

/-- The block-compressed formats by their codes (rule R39). -/
theorem isBc_iff_blockCode (d : Descriptor) : d.isBc = true ↔ blockCode d := by
  have htable : ∀ c : BitVec 6, formatIsBc c = true ↔ c.toNat ∈ [0x31, 0x33, 0x34, 0x35] := by decide
  unfold blockCode
  rw [← formatCode_toNat]
  exact htable d.formatCode

/-- A format is supported exactly where it has bits per element (rules R39, R40). -/
theorem supported_iff_bpp_ne_zero (d : Descriptor) : supported d ↔ d.bpp ≠ 0 := by
  have htable : ∀ c : BitVec 6, c.toNat ∈ [0x07, 0x08, 0x1A, 0x31, 0x33, 0x34, 0x35] ↔ formatBpp c ≠ 0 := by decide
  unfold supported
  rw [← formatCode_toNat]
  exact htable d.formatCode

/-- The bits per element of a supported format (rule R39). -/
theorem bpp_mem {d : Descriptor} (h : d.bpp ≠ 0) : d.bpp ∈ [16, 32, 64, 128] := by
  rcases formatBpp_cases d.formatCode with hb | hb | hb | hb | hb <;> simp_all [Descriptor.bpp]

theorem samples_mem (d : Descriptor) : d.samples ∈ [1, 2, 4, 8] := by
  rcases samples_cases d with h | h | h | h <;> simp [h]

theorem samples_pos (d : Descriptor) : 0 < d.samples := by
  rcases samples_cases d with h | h | h | h <;> omega

/-- The sample count by the AA code (rule R78). -/
theorem samples_eq (d : Descriptor) :
    d.samples = (if d.aa = 0 then 1 else if d.aa = 1 then 2 else if d.aa = 2 then 4 else 8) := by
  have htable : ∀ a : BitVec 2,
      1 <<< a.toNat = (if a = 0 then 1 else if a = 1 then 2 else if a = 2 then 4 else 8) := by decide
  exact htable d.aa

/-- TILE_MODE is assigned by its number (rules R74, R101). -/
theorem isAssigned_requestedMode_iff (d : Descriptor) : d.requestedMode.isAssigned = true ↔ modeAssigned d := by
  unfold modeAssigned Descriptor.requestedMode TileMode.ofCode
  split <;> simp_all [TileMode.isAssigned]

/-- The codes of the concrete modes (rule R74). -/
theorem code_mem_of_concrete {m : TileMode} (h : m.isConcrete = true) : m.code.toNat ∈ [1, 2, 3, 4, 7, 16] := by
  cases m <;> simp_all [TileMode.isConcrete, TileMode.code]

/-- DIM 6 is the 3D dimension (rule R72). -/
theorem dimension_eq_d3_iff (d : Descriptor) : d.dimension = .d3 ↔ d.dim = 6 := by
  have htable : ∀ c : BitVec 3, Dimension.ofCode c = .d3 ↔ c = 6 := by decide
  exact htable d.dim

/-- The checks of rule R101 on the raw registers. -/
theorem calcCheck_eq_none_iff_checked (d : Descriptor) : d.calcCheck = none ↔ checked d := by
  rw [calcCheck_eq_none_iff, ← supported_iff_bpp_ne_zero, isAssigned_requestedMode_iff, dimension_eq_d3_iff]
  simp only [checked, tooBig, not_or, not_and, Nat.not_le]

/-- The bound check of rule R121, as numbers. -/
theorem fits_iff_bounded (r : LayoutResult) : r.fits = true ↔ bounded r := by
  simp only [LayoutResult.fits, bounded, Bool.and_eq_true, decide_eq_true_eq, List.all_eq_true, and_assoc]

/-! ## Alignments -/

/-- The alignments of a level of a supported format (rule R108): the base is at most 2^16 bytes. -/
theorem tableAlign_base_le {m : TileMode} {bpp samples : Nat} (hm : m.isConcrete = true)
    (hb : bpp ∈ [16, 32, 64, 128]) (hs : samples ∈ [1, 2, 4, 8]) : (tableAlign m bpp samples).base ≤ 65536 := by
  have htable : ∀ bpp ∈ [16, 32, 64, 128], ∀ samples ∈ [1, 2, 4, 8],
      ∀ m ∈ [TileMode.linearAligned, .thin1D, .thick1D, .thin2D, .thick2D, .linearSpecial],
        (tableAlign m bpp samples).base ≤ 65536 := by decide
  exact htable bpp hb samples hs m (by cases m <;> simp_all [TileMode.isConcrete])

/-- Micro-tiled pitches and heights are whole 8 × 8 tiles (rule R108). -/
theorem tableAlign_micro {m : TileMode} {bpp samples : Nat} (hm : m = .thin1D ∨ m = .thick1D)
    (hb : bpp ∈ [16, 32, 64, 128]) (hs : samples ∈ [1, 2, 4, 8]) :
    8 ∣ (tableAlign m bpp samples).pitch ∧ 8 ∣ (tableAlign m bpp samples).height := by
  have htable : ∀ bpp ∈ [16, 32, 64, 128], ∀ samples ∈ [1, 2, 4, 8], ∀ m ∈ [TileMode.thin1D, .thick1D],
      8 ∣ (tableAlign m bpp samples).pitch ∧ 8 ∣ (tableAlign m bpp samples).height := by decide
  exact htable bpp hb samples hs m (by simpa using hm)

/-- The planes of the 2D modes are whole 32 × 16 blocks (rule R108). -/
theorem tableAlign_block {m : TileMode} {bpp samples : Nat} (hm : m = .thin2D ∨ m = .thick2D)
    (hb : bpp ∈ [16, 32, 64, 128]) (hs : samples ∈ [1, 2, 4, 8]) :
    32 ∣ (tableAlign m bpp samples).pitch ∧ 16 ∣ (tableAlign m bpp samples).height := by
  have htable : ∀ bpp ∈ [16, 32, 64, 128], ∀ samples ∈ [1, 2, 4, 8], ∀ m ∈ [TileMode.thin2D, .thick2D],
      32 ∣ (tableAlign m bpp samples).pitch ∧ 16 ∣ (tableAlign m bpp samples).height := by decide
  exact htable bpp hb samples hs m (by simpa using hm)

/-! ## The geometry of a level -/

theorem levelSize_exact (d : Descriptor) (m : TileMode) (L : Nat) :
    8 * (d.levelGeom specParams m L).size =
      (d.levelGeom specParams m L).pitch * (d.levelGeom specParams m L).height * (d.levelGeom specParams m L).slices
        * d.samples * d.bpp := by
  have hbpp : 8 ∣ d.bpp := by
    rcases formatBpp_cases d.formatCode with h | h | h | h | h <;> simp [Descriptor.bpp, h]
  rw [levelGeom_size]
  exact Nat.mul_div_cancel' (Dvd.dvd.mul_left hbpp _)

section
variable {d : Descriptor} {m : TileMode}

theorem levelGeom_mode_concrete (hm : m.isConcrete = true) (L : Nat) :
    (d.levelGeom specParams m L).mode.isConcrete = true :=
  levelTileMode_concrete hm L _ _ _

/-- The least multiple that holds an extent (rule R6). -/
theorem roundUp_spec (a : Nat) {b : Nat} (hb : 0 < b) : a ≤ roundUp a b ∧ roundUp a b < a + b ∧ b ∣ roundUp a b :=
  ⟨le_roundUp hb, roundUp_lt hb, dvd_roundUp a b⟩

/-- The padded extents of a level are at least 1 (rule R109). -/
theorem levelGeom_pos (hm : m.isConcrete = true) (hb : d.bpp ≠ 0) (L : Nat) :
    0 < (d.levelGeom specParams m L).pitch ∧ 0 < (d.levelGeom specParams m L).height ∧
      0 < (d.levelGeom specParams m L).slices := by
  obtain ⟨hp, hh, hs⟩ := tableAlign_pos (samples := d.samples) (levelGeom_mode_concrete (d := d) hm L) hb
  exact ⟨roundUp_pos (elemWidth_pos d L) hp, roundUp_pos (elemHeight_pos d L) hh, roundUp_pos (levelSlices_pos d L) hs⟩

/-- No extent of a level exceeds the number of its bytes (rule R109). -/
theorem levelGeom_extents_le_size (hm : m.isConcrete = true) (hb : d.bpp ≠ 0) (L : Nat) :
    (d.levelGeom specParams m L).pitch ≤ (d.levelGeom specParams m L).size ∧
      (d.levelGeom specParams m L).height ≤ (d.levelGeom specParams m L).size ∧
      (d.levelGeom specParams m L).slices ≤ (d.levelGeom specParams m L).size := by
  obtain ⟨hp, hh, hs⟩ := levelGeom_pos hm hb L
  have hn := samples_pos d
  have hbpp : 8 ≤ d.bpp := by
    have := bpp_mem hb
    simp only [List.mem_cons, List.not_mem_nil, or_false] at this
    omega
  have hsize := levelSize_exact d m L
  have hvolume : (d.levelGeom specParams m L).pitch * (d.levelGeom specParams m L).height
      * (d.levelGeom specParams m L).slices ≤ (d.levelGeom specParams m L).size := by
    refine Nat.le_of_mul_le_mul_left ?_ (show 0 < 8 by omega)
    rw [hsize, Nat.mul_comm]
    exact Nat.mul_le_mul (Nat.le_mul_of_pos_right _ hn) hbpp
  refine ⟨?_, ?_, ?_⟩ <;> refine le_trans ?_ hvolume
  · rw [Nat.mul_assoc]; exact Nat.le_mul_of_pos_right _ (Nat.mul_pos hh hs)
  · exact (Nat.le_mul_of_pos_left _ hp).trans (Nat.le_mul_of_pos_right _ hs)
  · exact Nat.le_mul_of_pos_left _ (Nat.mul_pos hp hh)

theorem levelGeom_align_le (hm : m.isConcrete = true) (hb : d.bpp ≠ 0) (L : Nat) :
    (d.levelGeom specParams m L).align ≤ 65536 :=
  tableAlign_base_le (levelGeom_mode_concrete hm L) (bpp_mem hb) (samples_mem d)

end

/-- Settles O36: the roundings of rule R109, and the table of rule R108 for the whole tiles and blocks. -/
theorem geometryIsPadded : Obligations.GeometryIsPadded := by
  unfold Obligations.GeometryIsPadded
  rintro d m L g al hsup hm rfl rfl
  have hb := (supported_iff_bpp_ne_zero d).1 hsup
  obtain ⟨hp, hh, hs⟩ := tableAlign_pos (samples := d.samples) (levelGeom_mode_concrete (d := d) hm L) hb
  refine ⟨roundUp_spec _ hp, roundUp_spec _ hh, roundUp_spec _ hs, levelSize_exact d m L, ⟨rfl, rfl, rfl⟩, ?_, ?_⟩
  · intro hmicro
    obtain ⟨hpitch, hheight⟩ := tableAlign_micro hmicro (bpp_mem hb) (samples_mem d)
    exact ⟨hpitch.trans (dvd_roundUp _ _), hheight.trans (dvd_roundUp _ _)⟩
  · intro hblock
    obtain ⟨hpitch, hheight⟩ := tableAlign_block hblock (bpp_mem hb) (samples_mem d)
    exact ⟨hpitch.trans (dvd_roundUp _ _), hheight.trans (dvd_roundUp _ _)⟩

/-- The slices of a level by the DIM code (rules R72, R105). -/
theorem levelSlices_eq (d : Descriptor) (L : Nat) :
    d.levelSlices L =
      (if d.dim = 6 then max (d.depth.toNat / 2 ^ L) 1
      else if d.dim = 7 then max d.depth.toNat 6
      else if d.dim = 1 ∨ d.dim = 3 ∨ d.dim = 5 then max d.depth.toNat 1 else 1) := by
  have hcodes : ∀ c : BitVec 3, c = 0 ∨ c = 1 ∨ c = 2 ∨ c = 3 ∨ c = 4 ∨ c = 5 ∨ c = 6 ∨ c = 7 := by decide
  unfold Descriptor.levelSlices Descriptor.dimension
  rw [Nat.shiftRight_eq_div_pow]
  rcases hcodes d.dim with h | h | h | h | h | h | h | h <;> rw [h] <;> rfl

/-- Settles O34, from the tables of DIM, FORMAT and AA. -/
theorem levelExtentsByDimension : Obligations.LevelExtentsByDimension := by
  unfold Obligations.LevelExtentsByDimension
  intro d L
  have honeDim : d.dimension.isOneDim = true ↔ d.dim = 0 ∨ d.dim = 1 := by
    have htable : ∀ c : BitVec 3, (Dimension.ofCode c).isOneDim = true ↔ c = 0 ∨ c = 1 := by decide
    exact htable d.dim
  have hblock (n : Nat) : d.inElements n = if blockCode d then (n + 3) / 4 else n := by
    simp only [Descriptor.inElements, isBc_iff_blockCode]
  refine ⟨?_, ?_, ?_, hblock _, hblock _, isBc_iff_blockCode d, bpp_eq_of_format d, samples_eq d⟩
  · rw [Descriptor.levelWidth, Nat.shiftRight_eq_div_pow]
  · simp only [Descriptor.levelHeight, honeDim, Nat.shiftRight_eq_div_pow]
  · exact levelSlices_eq d L

/-! ## The levels of a valid layout -/

/-- The sizes of the walk are those of the levels' geometry (rule R113). -/
theorem mipWalk_sizes (P : LayoutParams) (d : Descriptor) (m : TileMode) (sw : Word) (k : Nat) :
    (d.mipWalk P m sw (k + 1)).sizes = (List.range k).map fun i => (d.levelGeom P m (i + 1)).size := by
  induction k with
  | zero => rfl
  | succ k ih => rw [mipWalk_succ P d m sw (by omega), List.range_succ]; simp [Walk.step, ih]

/-- Every level of a layout that fits has a size below 2^32 (rule R121). -/
theorem levelSize_lt_of_fits {d : Descriptor} (h : (d.layoutResult specParams).fits = true) {L : Nat}
    (hL : L < d.mipCount) : (d.levelGeom specParams (d.levelZero specParams).mode L).size < 2 ^ 32 := by
  obtain ⟨hzero, -, -, -, -, hsizes⟩ := (fits_iff_bounded _).1 h
  cases L with
  | zero =>
    rw [← levelZero_geom]
    exact hzero
  | succ i =>
    obtain ⟨k, hk⟩ : ∃ k, d.mipCount = k + 1 := ⟨d.mipCount - 1, by omega⟩
    refine hsizes _ ?_
    simp only [Descriptor.layoutResult, hk, mipWalk_sizes, List.mem_map, List.mem_range]
    exact ⟨i, by omega, rfl⟩

/-- What a valid layout says of the descriptor: it passes the checks, the layout fits, and the request and MIP_LEVELS
are those that CALC wrote back (rules R41, R100). -/
theorem layoutCoherent_desc {s : State} (hs : s.LayoutCoherent) (hv : s.layoutValid = true) :
    s.desc.calcCheck = none ∧ (s.desc.layoutResult specParams).fits = true ∧
      s.desc.requestedMode = (s.desc.levelZero specParams).mode ∧ s.desc.mipLevels.toNat = s.desc.mipCount := by
  obtain ⟨r, hr, hdesc, -⟩ := hs hv
  obtain ⟨hc, hfits, rfl⟩ := (calculate_ok_iff _ _ _).1 hr
  refine ⟨hc, hfits, ?_, ?_⟩
  · conv_lhs => rw [← hdesc]
    exact newDesc_requestedMode hc
  · conv_lhs => rw [← hdesc]
    exact newDesc_mipLevels_toNat hc

section
variable {s : State} (hs : s.LayoutCoherent) (hv : s.layoutValid = true)
include hs hv

theorem requestedMode_concrete_of_valid : s.desc.requestedMode.isConcrete = true := by
  obtain ⟨hc, -, hmode, -⟩ := layoutCoherent_desc hs hv
  obtain ⟨-, -, hassigned⟩ := (calcCheck_eq_none_iff _).1 hc
  rw [hmode]
  exact levelZero_mode_concrete hassigned

theorem bpp_ne_zero_of_valid : s.desc.bpp ≠ 0 := by
  obtain ⟨hc, -⟩ := layoutCoherent_desc hs hv
  obtain ⟨-, hb, -⟩ := (calcCheck_eq_none_iff _).1 hc
  exact hb

/-- Each level of a valid layout has a size below 2^32 (rules R41, R121). -/
theorem levelSize_lt_of_valid {L : Nat} (hL : L < s.desc.mipLevels.toNat) :
    (s.desc.levelGeom specParams s.desc.requestedMode L).size < 2 ^ 32 := by
  obtain ⟨-, hfits, hmode, hlevels⟩ := layoutCoherent_desc hs hv
  rw [hmode]
  exact levelSize_lt_of_fits hfits (by omega)

end

/-- Settles O28, from the checks that the descriptor of a valid layout passes. -/
theorem validLayoutIsUsable : Obligations.ValidLayoutIsUsable := by
  unfold Obligations.ValidLayoutIsUsable
  intro s hs hv
  obtain ⟨hc, -, -, hlevels⟩ := layoutCoherent_desc hs hv
  have hone := one_le_mipCount s.desc
  have hmax := mipCount_le_of_checked hc
  refine ⟨(supported_iff_bpp_ne_zero _).2 (bpp_ne_zero_of_valid hs hv), ?_, by omega, by omega,
    fun L hL => levelSize_lt_of_valid hs hv hL⟩
  have hcode := code_mem_of_concrete (requestedMode_concrete_of_valid hs hv)
  rwa [Descriptor.requestedMode, TileMode.code_ofCode] at hcode

/-! ## What CALC and GEOM write -/

theorem execCalc_of_ok {s : State} {r : LayoutResult} (h : s.desc.calculate specParams = .ok r) :
    execCalc s = .next (s.writeLayout r).succeed := by
  unfold execCalc; rw [h]

theorem execCalc_of_error {s : State} {e : ErrCode} (h : s.desc.calculate specParams = .error e) :
    execCalc s = .next (s.raiseCalc e) := by
  unfold execCalc; rw [h]

theorem execGeom_of_ok {s : State} {g : Geom} (h : s.selectLevel = .ok g) :
    execGeom s = .next (s.writeLevel g).succeed := by
  unfold execGeom; rw [h]

theorem execGeom_of_error {s : State} {e : ErrCode} (h : s.selectLevel = .error e) :
    execGeom s = .next (s.raise e) := by
  unfold execGeom; rw [h]

theorem execXlate_of_ok {s : State} {g : Geom} {off : Nat} (h : s.translate = .ok (g, off)) :
    execXlate s = .next { s.writeLevel g with xlOffset := BitVec.ofNat 32 off }.succeed := by
  unfold execXlate; rw [h]

theorem execXlate_of_error {s : State} {e : ErrCode} (h : s.translate = .error e) :
    execXlate s = .next (s.raise e) := by
  unfold execXlate; rw [h]

/-- A register holds a number below 2^32 whole (rule R6). -/
theorem toNat_ofNat_of_lt {n : Nat} (h : n < 2 ^ 32) : (BitVec.ofNat 32 n).toNat = n := by
  rw [BitVec.toNat_ofNat, Nat.mod_eq_of_lt h]

/-- The offsets that CALC lists are those of levels 1 to MIP_LEVELS - 1 (rule R113). -/
theorem layoutResult_offsets_length (d : Descriptor) :
    (d.layoutResult specParams).offsets.length = (d.layoutResult specParams).levels - 1 := by
  obtain ⟨k, hk⟩ : ∃ k, d.mipCount = k + 1 := ⟨d.mipCount - 1, by have := one_le_mipCount d; omega⟩
  simp only [Descriptor.layoutResult, hk]
  exact (mipWalk_length _ _ _ _ k).1

/-- An entry of MIP_OFFSET (rules R33, R116). -/
theorem mipOffset_toNat {r : LayoutResult} (hlen : r.offsets.length = r.levels - 1) (ho : ∀ o ∈ r.offsets, o < 2 ^ 32)
    (i : Fin 13) :
    (r.regs.mipOffset.get i).toNat = if i.val + 1 < r.levels then r.offsets.getD i.val 0 else 0 := by
  have hget : r.regs.mipOffset.get i = BitVec.ofNat 32 (r.offsets.getD i.val 0) := by
    simp [LayoutResult.regs, Vector.get_eq_getElem]
  rw [hget]
  split
  · next hi =>
    have hlt : i.val < r.offsets.length := by omega
    rw [List.getD_eq_getElem _ _ hlt]
    exact toNat_ofNat_of_lt (ho _ (List.getElem_mem hlt))
  · next hi =>
    rw [List.getD_eq_default _ _ (by omega)]
    rfl

/-- Settles O31: the checks pass and the values fit, so each register holds its value whole. -/
theorem calcWritesTheLayout : Obligations.CalcWritesTheLayout := by
  unfold Obligations.CalcWritesTheLayout
  intro s hchecked hbounded
  have hc := (calcCheck_eq_none_iff_checked s.desc).2 hchecked
  have hr : s.desc.calculate specParams = .ok (s.desc.layoutResult specParams) :=
    (calculate_ok_iff _ _ _).2 ⟨hc, (fits_iff_bounded _).2 hbounded, rfl⟩
  obtain ⟨hsize, halign, hpitch, hmip, hoff, -⟩ := hbounded
  exact ⟨_, execCalc_of_ok hr, rfl, rfl, newDesc_mipLevels_toNat hc, rfl, toNat_ofNat_of_lt hsize,
    toNat_ofNat_of_lt halign, toNat_ofNat_of_lt hpitch, toNat_ofNat_of_lt hmip,
    mipOffset_toNat (layoutResult_offsets_length _) hoff⟩

theorem selectLevel_of_ready {s : State} (h : s.LevelReady) : s.selectLevel = .ok s.levelHere := by
  obtain ⟨hv, hl⟩ := h
  rcases selectLevel_cases s with ⟨hv', -⟩ | ⟨-, hl', -⟩ | ⟨-, -, hs⟩
  · simp [hv] at hv'
  · omega
  · exact hs

theorem selectLevel_of_not_valid {s : State} (h : s.layoutValid = false) : s.selectLevel = .error .layoutNotValid := by
  rcases selectLevel_cases s with ⟨-, hs⟩ | ⟨hv, -⟩ | ⟨hv, -⟩
  · exact hs
  · simp [h] at hv
  · simp [h] at hv

/-- With a valid layout, LV_* holds the geometry of an existing level whole (rules R36, R109, R120). -/
theorem levelWritten_of_ready {s t : State} (hs : s.LayoutCoherent) (hr : s.LevelReady)
    (ht : t.lv = Geom.regs s.levelHere) : levelWritten t s.levelHere := by
  obtain ⟨hv, hl⟩ := hr
  have hm := requestedMode_concrete_of_valid hs hv
  have hb := bpp_ne_zero_of_valid hs hv
  have hsize : s.levelHere.size < 2 ^ 32 := levelSize_lt_of_valid hs hv hl
  obtain ⟨hpitch, hheight, hslices⟩ := levelGeom_extents_le_size hm hb s.xl.level.toNat
  have halign := levelGeom_align_le hm hb s.xl.level.toNat
  unfold levelWritten
  rw [ht]
  exact ⟨rfl, toNat_ofNat_of_lt (hpitch.trans_lt hsize), toNat_ofNat_of_lt (hheight.trans_lt hsize),
    toNat_ofNat_of_lt (hslices.trans_lt hsize), toNat_ofNat_of_lt hsize,
    toNat_ofNat_of_lt (halign.trans_lt (by decide))⟩

/-- Settles O42: every value of the level's geometry fits its register. -/
theorem geomWritesTheLevel : Obligations.GeomWritesTheLevel := by
  unfold Obligations.GeomWritesTheLevel
  intro s hs hr
  exact ⟨_, execGeom_of_ok (selectLevel_of_ready hr), rfl, levelWritten_of_ready hs hr rfl⟩

/-! ## FORMAT[31:6] -/

section
variable {d : Descriptor} {f : Word} (hf : f.toNat % 64 = d.format.toNat % 64)
include hf

theorem sameShape_format : d.SameShape { d with format := f } where
  dim := rfl
  width := rfl
  height := rfl
  depth := rfl
  formatCode := BitVec.eq_of_toNat_eq (by rw [formatCode_toNat, formatCode_toNat]; exact hf)
  aa := rfl

theorem levelZero_format (P : LayoutParams) : Descriptor.levelZero P { d with format := f } = d.levelZero P := by
  have h := sameShape_format hf
  unfold Descriptor.levelZero Descriptor.fallbackZero Descriptor.adjustZero
  simp only [h.levelGeom_eq, h.elemWidth_eq, h.elemHeight_eq]
  rfl

/-- CALC's computation does not read FORMAT[31:6] (rule R26). -/
theorem calculate_format (P : LayoutParams) : Descriptor.calculate P { d with format := f } = d.calculate P := by
  have h := sameShape_format hf
  have hcheck : Descriptor.calcCheck { d with format := f } = d.calcCheck := by
    unfold Descriptor.calcCheck; rw [h.bpp_eq]; rfl
  have hcount : Descriptor.mipCount { d with format := f } = d.mipCount := h.mipCount_eq Iff.rfl
  have hresult : Descriptor.layoutResult P { d with format := f } = d.layoutResult P := by
    simp only [Descriptor.layoutResult, levelZero_format hf, hcount, h.mipWalk_eq]
  unfold Descriptor.calculate
  rw [hcheck, hresult]

theorem elementOffset_format (g : Geom) (n x y : Nat) :
    Descriptor.elementOffset { d with format := f } g n x y = d.elementOffset g n x y := by
  unfold Descriptor.elementOffset Descriptor.bytes
  rw [(sameShape_format hf).bpp_eq]
  rfl

end

section
variable {s : State} {f : Word} (hf : f.toNat % 64 = s.desc.format.toNat % 64)
include hf

theorem selectLevel_format :
    State.selectLevel { s with desc := { s.desc with format := f } } = s.selectLevel := by
  unfold State.selectLevel
  simp only [(sameShape_format hf).levelGeom_eq]
  rfl

theorem translate_format : State.translate { s with desc := { s.desc with format := f } } = s.translate := by
  unfold State.translate
  rw [selectLevel_format hf]
  simp only [elementOffset_format hf]

end

/-- Settles O41: what each command computes is the same with other upper bits of FORMAT. -/
theorem formatUpperBitsAreIgnored : Obligations.FormatUpperBitsAreIgnored := by
  unfold Obligations.FormatUpperBitsAreIgnored
  intro i s t f hf h
  cases i with
  | calculate =>
    rcases execCalc_cases s with ⟨e, hr, hx⟩ | ⟨r, hr, hx⟩ <;> cases hx.symm.trans h
    · exact execCalc_of_error ((calculate_format hf _).trans hr)
    · exact execCalc_of_ok ((calculate_format hf _).trans hr)
  | geom =>
    rcases execGeom_cases s with ⟨e, hr, hx⟩ | ⟨g, hr, hx⟩ <;> cases hx.symm.trans h
    · exact execGeom_of_error ((selectLevel_format hf).trans hr)
    · exact execGeom_of_ok ((selectLevel_format hf).trans hr)
  | xlate =>
    rcases execXlate_cases s with ⟨e, hr, hx⟩ | ⟨g, off, hr, hx⟩ <;> cases hx.symm.trans h
    · exact execXlate_of_error ((translate_format hf).trans hr)
    · exact execXlate_of_ok ((translate_format hf).trans hr)
  | nop | bc1 | bc3 | bc4 | bc5 => cases h; rfl

end Sys2Proof.Machine

/-! SUPPORT. The proofs of the family of 10_state.md: the register port, the registers, and LAYOUT_VALID. -/

namespace Sys2Proof

/-- The offset of each register is that of the table of rule R20. -/
theorem Reg.offset_toNat (r : Reg) : r.offset.toNat = Rules.tableOffset r := by
  have h : ∀ r ∈ Reg.all, r.offset.toNat = Rules.tableOffset r := by decide
  exact h r r.mem_all

/-- A word that decodes to a command is the command's word (rules R70, R71, R79). -/
theorem eq_encode_of_decode {w : Word} {i : Instr} (h : decode w = some i) : w = encode i := by
  unfold decode at h
  split at h
  · cases h
  · next hhigh =>
    have hword : w = (0 : BitVec 24) ++ w.extractLsb' 0 8 := by
      rw [← not_not.1 hhigh]
      apply BitVec.eq_of_toNat_eq
      rw [BitVec.toNat_append, ← Nat.shiftLeft_add_eq_or_of_lt (BitVec.isLt _)]
      simp only [BitVec.extractLsb'_toNat, Nat.shiftRight_eq_div_pow, Nat.shiftLeft_eq]
      omega
    have hop : w.extractLsb' 0 8 = opcode i := by
      apply BitVec.eq_of_toNat_eq
      split at h <;> cases h <;> assumption
    rw [hword, hop]
    rfl

namespace Machine

open Sys2Proof.Rules

/-! ## Aligned accesses -/

theorem servePort_write {o : BitVec 9} (ho : o.toNat % 4 = 0) (v : Word) (s : State) :
    servePort (.write o 4 v) s = writeOffset o v s := by
  simp [servePort, PortEvent.wellFormed, ho]

theorem servePort_read {o : BitVec 9} (ho : o.toNat % 4 = 0) (s : State) :
    servePort (.read o 4) s = .next { s with readData := some (s.readOffset o) } := by
  simp [servePort, PortEvent.wellFormed, ho]

/-- A write of a command's word to CMD runs the command (rules R21, R70). -/
theorem servePort_command {w : Word} {i : Instr} (h : decode w = some i) (s : State) :
    servePort (.write 0x000 4 w) s = exec i s := by
  rw [servePort_write (by decide), show (0x000 : BitVec 9) = Reg.cmd.offset from rfl]
  simp [writeOffset, runCommandWord, h]

/-- A host write to a register other than CMD (rule R20). -/
theorem servePort_write_reg {r : Reg} (hr : r ≠ .cmd) (v : Word) (s : State) :
    servePort (.write r.offset 4 v) s = .next (s.hostWrite v r) := by
  rw [servePort_write r.offset_aligned, writeOffset, Reg.ofOffset_offset]
  cases r <;> first | rfl | exact absurd rfl hr

theorem servePort_read_reg (r : Reg) (s : State) :
    servePort (readEvent r) s = .next { s with readData := some (s.readReg r) } := by
  rw [readEvent, servePort_read r.offset_aligned, State.readOffset, Reg.ofOffset_offset]

/-- No command touches the port (rule R57). -/
theorem exec_port_frame {i : Instr} {s t : State} (h : exec i s = .next t) :
    t.pending = s.pending ∧ t.readData = s.readData := by
  rcases exec_cases i s with ⟨-, e, -, hx⟩ | ⟨-, r, -, hx⟩ | ⟨-, e, -, hx⟩ | ⟨-, g, -, hx⟩ | ⟨-, e, -, hx⟩ |
      ⟨-, g, off, -, hx⟩ | ⟨-, t', hx⟩ | ⟨-, hx⟩
  all_goals
    rw [hx] at h
    cases h
    exact ⟨rfl, rfl⟩

/-- Settles O4: the step serves the write, and the command leaves the port. -/
theorem stepRunsTheDecodedCommand : Obligations.StepRunsTheDecodedCommand := by
  unfold Obligations.StepRunsTheDecodedCommand
  intro s w i rest hp hd
  have hstep : step s = exec i { s with pending := rest } := by rw [step_cons hp, servePort_command hd]
  exact ⟨hstep, fun t ht => exec_port_frame (hstep.symm.trans ht)⟩

/-! ## The values of the registers -/

theorem statusWord_toNat (s : State) : s.statusWord.toNat = s.err.toNat + 16 * s.layoutValid.toNat := by
  have herr := s.err.isLt
  unfold State.statusWord
  rw [BitVec.toNat_append, ← Nat.shiftLeft_add_eq_or_of_lt herr]
  cases s.layoutValid
  · simp
  · simp; omega

/-- Settles O11. -/
theorem statusWordFields : Obligations.StatusWordFields := by
  unfold Obligations.StatusWordFields
  exact statusWord_toNat

/-- Settles O10: each register reads its own field by definition, but for STATUS and the narrow fields. -/
theorem readsHaveNoSideEffects : Obligations.ReadsHaveNoSideEffects := by
  unfold Obligations.ReadsHaveNoSideEffects
  intro s
  refine ⟨fun r => servePort_read_reg r s, rfl, statusWord_toNat s,
    BitVec.toNat_setWidth_of_le (by decide : 3 ≤ 32), rfl, rfl, rfl, rfl, rfl,
    BitVec.toNat_setWidth_of_le (by decide : 2 ≤ 32), BitVec.toNat_setWidth_of_le (by decide : 4 ≤ 32), ?_⟩
  exact ⟨rfl, rfl, rfl, rfl, rfl, rfl, fun _ => rfl, rfl, rfl, rfl, rfl, rfl, rfl, rfl, rfl, rfl, rfl, rfl,
    fun _ => rfl, fun _ => rfl⟩

/-! ## Host writes -/

/-- A write to a descriptor register stores a descriptor and clears LAYOUT_VALID (rules R41, R255). -/
theorem hostWrite_descriptor {r : Reg} (hr : r.isDescriptor = true) (s : State) (v : Word) :
    ∃ d, s.hostWrite v r = s.setDesc d := by
  cases r <;> first | exact ⟨_, rfl⟩ | cases hr

/-- A write to a register outside the descriptor leaves LAYOUT_VALID (rule R41). -/
theorem hostWrite_layoutValid {r : Reg} (hr : r.isDescriptor = false) (s : State) (v : Word) :
    (s.hostWrite v r).layoutValid = s.layoutValid := by
  cases r <;> first | rfl | cases hr

/-- A write to a register that stores no bits is ignored (rule R20). -/
theorem hostWrite_readOnly {r : Reg} (hr : r.storedBits = none) (s : State) (v : Word) : s.hostWrite v r = s := by
  cases r <;> first | rfl | cases hr

theorem ne_cmd_of_storedBits {r : Reg} {m : Word} (h : r.storedBits = some m) : r ≠ .cmd := by
  rintro rfl; cases h

theorem ne_cmd_of_isDescriptor {r : Reg} (h : r.isDescriptor = true) : r ≠ .cmd := by
  rintro rfl; cases h

/-- A register of `n` bits reads back the low `n` bits of what is written (rules R23, R27, R28). -/
theorem setWidth_extractLsb' (v : Word) {n : Nat} (hn : n ≤ 32) :
    (v.extractLsb' 0 n).setWidth 32 = v &&& BitVec.ofNat 32 (2 ^ n - 1) := by
  have hmask : 2 ^ n - 1 < 2 ^ 32 :=
    (Nat.sub_one_lt (Nat.two_pow_pos n).ne').trans_le (Nat.pow_le_pow_right (by decide) hn)
  apply BitVec.eq_of_toNat_eq
  rw [BitVec.toNat_setWidth_of_le hn, BitVec.extractLsb'_toNat, BitVec.toNat_and, toNat_ofNat_of_lt hmask,
    Nat.and_two_pow_sub_one_eq_mod, Nat.shiftRight_zero]

/-- A register of access RW reads back the bits it stores (rules R20, R23 to R30, R34, R37). -/
theorem readReg_hostWrite_same {r : Reg} {m : Word} (h : r.storedBits = some m) (s : State) (v : Word) :
    (s.hostWrite v r).readReg r = v &&& m := by
  have hall : v &&& 0xFFFFFFFF = v := BitVec.and_allOnes
  cases r <;> cases h
  case dim => exact setWidth_extractLsb' v (by decide)
  case aa => exact setWidth_extractLsb' v (by decide)
  case usage => exact setWidth_extractLsb' v (by decide)
  case bcIn j => rw [hall]; simp [State.readReg, State.hostWrite, Vector.get_eq_getElem]
  all_goals exact hall.symm

/-- Outside the descriptor and STATUS, no register reads a field that a descriptor write changes (rule R255). -/
theorem readReg_setDesc {r : Reg} (hd : r.isDescriptor = false) (hs : r ≠ .status) (s : State) (d : Descriptor) :
    (s.setDesc d).readReg r = s.readReg r := by
  cases r <;> first | rfl | exact absurd rfl hs | cases hd

/-- A write to a descriptor register changes what no other descriptor register reads. -/
theorem readReg_hostWrite_descriptor {r r' : Reg} (hr : r.isDescriptor = true) (hr' : r'.isDescriptor = true)
    (hne : r' ≠ r) (s : State) (v : Word) : (s.hostWrite v r).readReg r' = s.readReg r' := by
  cases r <;> cases hr <;> cases r' <;> first | rfl | exact absurd rfl hne | cases hr'

/-- A host write changes what no other register reads, but STATUS (rule R20). -/
theorem readReg_hostWrite_other {r r' : Reg} (hne : r' ≠ r) (hs : r' ≠ .status) (s : State) (v : Word) :
    (s.hostWrite v r).readReg r' = s.readReg r' := by
  cases hd : r.isDescriptor with
  | true =>
    cases hd' : r'.isDescriptor with
    | true => exact readReg_hostWrite_descriptor hd hd' hne s v
    | false =>
      obtain ⟨d, hw⟩ := hostWrite_descriptor hd s v
      rw [hw, readReg_setDesc hd' hs]
  | false =>
    cases r with
    | xlLevel | xlSlice | xlX | xlY => cases r' <;> first | rfl | exact absurd rfl hne
    | bcIn j =>
      cases r' with
      | bcIn j' =>
        have hj : j.val ≠ j'.val := fun h => hne (by rw [Fin.ext h])
        simp [State.readReg, State.hostWrite, Vector.get_eq_getElem, Vector.getElem_set_ne, hj]
      | _ => rfl
    | cmd | status | imageSize | mipmapSize | alignment | pitch | mipOffset | xlOffset | lvTileMode | lvPitch | lvHeight
    | lvSlices | lvSize | lvAlign | bcOut => rfl
    | _ => cases hd

/-- Settles O12, from what a host write stores and what it leaves. -/
theorem hostWriteStoresItsRegisterOnly : Obligations.HostWriteStoresItsRegisterOnly := by
  unfold Obligations.HostWriteStoresItsRegisterOnly
  refine ⟨Reg.offset_toNat, fun s r m v hm => ?_⟩
  obtain ⟨herr, -, -, -, -, hpending, hread⟩ := hostWrite_frame s v r
  exact ⟨_, servePort_write_reg (ne_cmd_of_storedBits hm) v s, readReg_hostWrite_same hm s v,
    fun r' hne hs => readReg_hostWrite_other hne hs s v, herr, hpending, hread⟩

/-- Settles O13. -/
theorem hostWriteToReadOnlyIsIgnored : Obligations.HostWriteToReadOnlyIsIgnored := by
  unfold Obligations.HostWriteToReadOnlyIsIgnored
  intro s r v hbits hcmd
  rw [servePort_write_reg hcmd, hostWrite_readOnly hbits]

/-- GEOM and XLATE without a valid layout (rules R120, R150, R221). -/
theorem exec_layoutNotValid {s : State} (h : s.layoutValid = false) :
    exec .geom s = .next { s with err := 9 } ∧ exec .xlate s = .next { s with err := 9 } := by
  have hsel := selectLevel_of_not_valid h
  have htrans : s.translate = .error .layoutNotValid := by unfold State.translate; rw [hsel]
  exact ⟨execGeom_of_error hsel, execXlate_of_error htrans⟩

/-- Settles O14: the write invalidates the layout, and then GEOM and XLATE stop. -/
theorem descriptorWriteLeavesStaleResults : Obligations.DescriptorWriteLeavesStaleResults := by
  unfold Obligations.DescriptorWriteLeavesStaleResults
  intro s r v hr
  obtain ⟨d, hw⟩ := hostWrite_descriptor hr s v
  exact ⟨s.setDesc d, by rw [servePort_write_reg (ne_cmd_of_isDescriptor hr), hw], rfl, exec_layoutNotValid rfl⟩

/-! ## LAYOUT_VALID -/

/-- CALC sets LAYOUT_VALID where it succeeds and clears it where it fails (rule R41). -/
theorem calculate_layoutValid {s t : State} (h : exec .calculate s = .next t) : t.layoutValid = decide (t.err = 0) := by
  rcases execCalc_cases s with ⟨e, he, hx⟩ | ⟨r, -, hx⟩ <;> cases hx.symm.trans h
  · rcases calculate_error he with rfl | rfl | rfl <;> rfl
  · rfl

/-- No command but CALC writes LAYOUT_VALID (rule R41). -/
theorem exec_layoutValid {i : Instr} (hi : i ≠ .calculate) {s t : State} (h : exec i s = .next t) :
    t.layoutValid = s.layoutValid := by
  rcases exec_cases i s with ⟨hc, -⟩ | ⟨hc, -⟩ | ⟨-, e, -, hx⟩ | ⟨-, g, -, hx⟩ | ⟨-, e, -, hx⟩ |
      ⟨-, g, off, -, hx⟩ | ⟨-, t', hx⟩ | ⟨-, hx⟩
  · exact absurd hc hi
  · exact absurd hc hi
  all_goals
    rw [hx] at h
    cases h
    rfl

/-- An event other than a CALC, a descriptor write and reset leaves LAYOUT_VALID (rule R41). -/
theorem servePort_layoutValid {e : PortEvent} {s t : State} (h : servePort e s = .next t)
    (hcalc : e ≠ .write 0x000 4 0x00000001)
    (hdesc : ∀ (r : Reg) (v : Word), r.isDescriptor = true → e ≠ .write r.offset 4 v) (hreset : e ≠ .reset) :
    t.layoutValid = s.layoutValid := by
  rcases servePort_cases e s with ⟨-, hx⟩ | ⟨he, -⟩ | ⟨o, -, hx⟩ | ⟨w, i, he, hd, hx⟩ | ⟨w, -, -, hx⟩ |
      ⟨r, v, -, he, hx⟩ | ⟨o, v, -, -, hx⟩
  · rw [hx] at h; cases h
  · exact absurd he hreset
  · rw [hx] at h; cases h; rfl
  · refine exec_layoutValid ?_ (hx.symm.trans h)
    rintro rfl
    exact hcalc (by rw [he, eq_encode_of_decode hd]; rfl)
  · rw [hx] at h; cases h; rfl
  · rw [hx] at h
    cases h
    refine hostWrite_layoutValid ?_ s v
    exact Bool.eq_false_iff.2 fun hr => hdesc r v hr he
  · rw [hx] at h; cases h; rfl

/-- Settles O15, a lemma for each kind of event. -/
theorem layoutValidWriters : Obligations.LayoutValidWriters := by
  unfold Obligations.LayoutValidWriters
  intro s t e h
  refine ⟨?_, ?_, ?_, servePort_layoutValid h⟩
  · rintro rfl
    exact calculate_layoutValid ((servePort_command (i := .calculate) (by decide) s).symm.trans h)
  · rintro ⟨r, v, hr, rfl⟩
    obtain ⟨d, hw⟩ := hostWrite_descriptor hr s v
    rw [servePort_write_reg (ne_cmd_of_isDescriptor hr), hw] at h
    cases h
    rfl
  · rintro rfl
    cases h
    rfl

/-! ## Host-program lines -/

theorem writeEvent_aligned (r : Reg) (v : Nat) : (writeEvent r v).wellFormed = true ∧ writeEvent r v ≠ .reset :=
  ⟨by simp [writeEvent, PortEvent.wellFormed, r.offset_aligned], nofun⟩

theorem readEvent_aligned (r : Reg) : (readEvent r).wellFormed = true ∧ readEvent r ≠ .reset :=
  ⟨by simp [readEvent, PortEvent.wellFormed, r.offset_aligned], nofun⟩

theorem commandEvent_aligned (i : Instr) : (commandEvent i).wellFormed = true ∧ commandEvent i ≠ .reset :=
  ⟨by simp [commandEvent, PortEvent.wellFormed, Reg.cmd.offset_aligned], nofun⟩

/-- A line stands for aligned register writes, register reads and command writes (rules R83, R84). -/
theorem encode_aligned (l : HostLine) : ∀ e ∈ l.encode, e.wellFormed = true ∧ e ≠ .reset := by
  cases l <;> simp [HostLine.encode, writeEvent_aligned, readEvent_aligned, commandEvent_aligned]

/-- A register write of a word's number carries the word (rule R83). -/
theorem writeEvent_toNat (r : Reg) (w : Word) : writeEvent r w.toNat = .write r.offset 4 w := by
  unfold writeEvent; rw [BitVec.ofNat_toNat, BitVec.setWidth_eq]

/-- Settles O18, from the accesses of each line. -/
theorem hostLinesEncode : Obligations.HostLinesEncode := by
  unfold Obligations.HostLinesEncode
  refine ⟨encode_aligned, ?_, ?_, fun i => rfl, ?_, ?_, ?_, rfl⟩
  · intro r v hv
    exact ⟨BitVec.ofNat 32 v, rfl, toNat_ofNat_of_lt hv⟩
  · exact fun r => ⟨r.offset_toNat, rfl⟩
  · intro l s x y
    simp only [HostLine.encode, writeEvent_toNat]
    rfl
  · intro l
    simp only [HostLine.encode, writeEvent_toNat]
    rfl
  · intro w0 w1 w2 w3
    simp only [HostLine.encode, writeEvent_toNat]
    rfl

end Machine

end Sys2Proof

/-! SUPPORT. The proofs of the family of 20_memory.md: the block's window, what the port serves, and that a safe host
never stops the block. -/

namespace Sys2Proof

/-! ## The window -/

/-- The offsets 0x000..0x1FF fit the nine bits of an event's offset (rule R51). -/
theorem blockOffset_of_mem {base addr : Nat} (h : base ≤ addr ∧ addr < base + 512) :
    blockOffset base addr = some (BitVec.ofNat 9 (addr - base)) := if_pos h

theorem blockOffset_of_not_mem {base addr : Nat} (h : ¬ (base ≤ addr ∧ addr < base + 512)) :
    blockOffset base addr = none := if_neg h

/-- Settles O17: nine bits hold the distance of an address in the window from `base`. -/
theorem blockWindow : Obligations.BlockWindow := by
  unfold Obligations.BlockWindow
  intro base addr
  refine ⟨fun h => ⟨_, blockOffset_of_mem h, ?_⟩, blockOffset_of_not_mem⟩
  rw [BitVec.toNat_ofNat]
  omega

namespace Machine

/-! ## One event -/

/-- Serving one event takes no other away (rule R57); the reset input too leaves those that wait (log entry 13). -/
theorem servePort_pending {e : PortEvent} {s t : State} (h : servePort e s = .next t) : t.pending = s.pending := by
  rcases servePort_cases e s with ⟨-, hx⟩ | ⟨-, hx⟩ | ⟨o, -, hx⟩ | ⟨w, i, -, -, hx⟩ | ⟨w, -, -, hx⟩ |
      ⟨r, v, -, -, hx⟩ | ⟨o, v, -, -, hx⟩ <;> rw [hx] at h
  · cases h
  · cases h; rfl
  · cases h; rfl
  · obtain ⟨hpending, -⟩ := exec_port_frame h
    exact hpending
  · cases h; rfl
  · cases h
    obtain ⟨-, -, -, -, -, hpending, -⟩ := hostWrite_frame s v r
    exact hpending
  · cases h; rfl

/-- Settles O6, from the two cases of a step and what serving an event keeps. -/
theorem stepServesTheNextEvent : Obligations.StepServesTheNextEvent := by
  unfold Obligations.StepServesTheNextEvent
  exact ⟨fun _ => step_idle, fun _ _ _ => step_cons, fun _ _ _ => servePort_pending⟩

/-- Every command runs to its end (rules R57, R223). -/
theorem exec_total (i : Instr) (s : State) : ∃ t, exec i s = .next t := by
  rcases exec_cases i s with ⟨-, e, -, hx⟩ | ⟨-, r, -, hx⟩ | ⟨-, e, -, hx⟩ | ⟨-, g, -, hx⟩ | ⟨-, e, -, hx⟩ |
      ⟨-, g, off, -, hx⟩ | ⟨-, t', hx⟩ | ⟨-, hx⟩
  all_goals exact ⟨_, hx⟩

/-- Every event but a misshapen access has a next state (rules R53, R54, R57, R223). -/
theorem servePort_total {e : PortEvent} (he : e.wellFormed = true) (s : State) : ∃ t, servePort e s = .next t := by
  rcases servePort_cases e s with ⟨hbad, -⟩ | ⟨-, hx⟩ | ⟨o, -, hx⟩ | ⟨w, i, -, -, hx⟩ | ⟨w, -, -, hx⟩ |
      ⟨r, v, -, -, hx⟩ | ⟨o, v, -, -, hx⟩
  · simp [he] at hbad
  · exact ⟨_, hx⟩
  · exact ⟨_, hx⟩
  · rw [hx]
    exact exec_total i s
  all_goals exact ⟨_, hx⟩

theorem servePort_misshapen {e : PortEvent} (he : e.wellFormed = false) (s : State) :
    servePort e s = .refused .busError := if_pos he

theorem wellFormed_read_iff (o : BitVec 9) (width : Nat) :
    (PortEvent.read o width).wellFormed = true ↔ width = 4 ∧ o.toNat % 4 = 0 := by
  simp [PortEvent.wellFormed]

/-- The value of a write has no part in its shape (rule R53). -/
theorem wellFormed_write (o : BitVec 9) (width : Nat) (v : Word) :
    (PortEvent.write o width v).wellFormed = (PortEvent.read o width).wellFormed := rfl

/-- Settles O7, from the shape of an access. -/
theorem onlyMisshapenAccessesAreRefused : Obligations.OnlyMisshapenAccessesAreRefused := by
  unfold Obligations.OnlyMisshapenAccessesAreRefused
  intro s o width v
  constructor
  · intro hbad
    have hread : (PortEvent.read o width).wellFormed = false := by
      rw [Bool.eq_false_iff, ne_eq, wellFormed_read_iff]
      omega
    exact ⟨servePort_misshapen hread s, servePort_misshapen ((wellFormed_write o width v).trans hread) s⟩
  · intro hgood
    have hread := (wellFormed_read_iff o width).2 hgood
    exact ⟨servePort_total hread s, servePort_total ((wellFormed_write o width v).trans hread) s⟩

/-- Settles O9: no register stands at the offset, so a read finds 0 and a write finds nothing. -/
theorem unmappedOffsets : Obligations.UnmappedOffsets := by
  unfold Obligations.UnmappedOffsets
  intro s o v haligned hfree
  have hnone := Reg.ofOffset_eq_none hfree
  constructor
  · rw [servePort_read haligned, State.readOffset, hnone]
  · rw [servePort_write haligned, writeOffset, hnone]

/-! ## Commands and the port -/

section
variable (s : State) (p : List PortEvent) (v : Option Word)

theorem selectLevel_port : State.selectLevel { s with pending := p, readData := v } = s.selectLevel := rfl

theorem translate_port : State.translate { s with pending := p, readData := v } = s.translate := rfl

end

/-- Settles O5: what each command computes is read from the registers. -/
theorem commandsIgnoreThePort : Obligations.CommandsIgnoreThePort := by
  unfold Obligations.CommandsIgnoreThePort
  intro i s t p v h
  cases i with
  | calculate =>
    rcases execCalc_cases s with ⟨e, hr, hx⟩ | ⟨r, hr, hx⟩ <;> cases hx.symm.trans h
    · exact execCalc_of_error hr
    · exact execCalc_of_ok hr
  | geom =>
    rcases execGeom_cases s with ⟨e, hr, hx⟩ | ⟨g, hr, hx⟩ <;> cases hx.symm.trans h
    · exact execGeom_of_error ((selectLevel_port s p v).trans hr)
    · exact execGeom_of_ok ((selectLevel_port s p v).trans hr)
  | xlate =>
    rcases execXlate_cases s with ⟨e, hr, hx⟩ | ⟨g, off, hr, hx⟩ <;> cases hx.symm.trans h
    · exact execXlate_of_error ((translate_port s p v).trans hr)
    · exact execXlate_of_ok ((translate_port s p v).trans hr)
  | nop | bc1 | bc3 | bc4 | bc5 => cases h; rfl

/-! ## Safe runs -/

/-- A host with aligned accesses only lets every step go on, and still has aligned accesses only (rules R53, R57). -/
theorem step_portSafe {s : State} (h : s.PortSafe) : ∃ t, step s = .next t ∧ t.PortSafe := by
  cases hp : s.pending with
  | nil => exact ⟨s, step_idle hp, h⟩
  | cons e rest =>
    have hall : e.wellFormed = true ∧ ∀ e' ∈ rest, e'.wellFormed = true := by
      unfold State.PortSafe at h
      rwa [hp, List.forall_mem_cons] at h
    obtain ⟨he, hrest⟩ := hall
    obtain ⟨t, ht⟩ := servePort_total he { s with pending := rest }
    have hpending : t.pending = rest := servePort_pending ht
    refine ⟨t, (step_cons hp).trans ht, ?_⟩
    unfold State.PortSafe
    rwa [hpending]

/-- A run whose first step goes on is a shorter run from the next state. -/
theorem run_succ_of_step {M : Host.Core} {s t : M.State} (h : M.step s = .next t) (k : Nat) :
    M.run (k + 1) s = M.run k t := by
  simp only [Host.Core.run, h]

/-- Settles O8, by induction on the length of the run. -/
theorem safePortRunsForever : Obligations.SafePortRunsForever := by
  unfold Obligations.SafePortRunsForever State.SafeRun
  intro s hs k
  induction k generalizing s with
  | zero => exact ⟨s, rfl⟩
  | succ k ih =>
    obtain ⟨t, ht, hsafe⟩ := step_portSafe hs
    obtain ⟨u, hu⟩ := ih t hsafe
    exact ⟨u, (run_succ_of_step (M := Sys2Proof.core) ht k).trans hu⟩

end Machine

end Sys2Proof

/-! SUPPORT. The proofs of the family of 20_memory.md: every offset that XLATE computes lies in the level's plane. -/

namespace Sys2Proof.Machine

/-! ## Bit fields as numbers -/

theorem clearBits_lt {v n : Nat} (h : v < 2 ^ n) (m : Nat) : clearBits v m < 2 ^ n :=
  Nat.xor_lt_two_pow h (lt_of_le_of_lt Nat.and_le_left h)

/-- The pixel index lies in 0..63 (rules R141, R142). -/
theorem pixelIndex_lt (x y bytes : Nat) : pixelIndex x y bytes < 64 := by
  have htemp : ((y &&& 6) <<< 2 ||| x &&& 7) < 2 ^ 5 := by
    have hx : x &&& 7 ≤ 7 := Nat.and_le_right
    have hy : y &&& 6 ≤ 6 := Nat.and_le_right
    exact Nat.or_lt_two_pow (by rw [Nat.shiftLeft_eq]; omega) (by omega)
  have hlow : ((y &&& 6) <<< 2 ||| x &&& 7) &&& (16 / bytes - 1) < 2 ^ 6 :=
    Nat.and_le_left.trans_lt (htemp.trans (by decide))
  have hhigh : clearBits ((y &&& 6) <<< 2 ||| x &&& 7) (16 / bytes - 1) <<< 1 < 2 ^ 6 := by
    have := clearBits_lt htemp (16 / bytes - 1)
    rw [Nat.shiftLeft_eq]
    omega
  have hrow : (y &&& 1) * (16 / bytes - 1 + 1) < 2 ^ 6 := by
    have hy : y &&& 1 ≤ 1 := Nat.and_le_right
    have hmask : 16 / bytes ≤ 16 := Nat.div_le_self 16 bytes
    have := Nat.mul_le_mul hy (show 16 / bytes - 1 + 1 ≤ 16 by omega)
    omega
  exact Nat.or_lt_two_pow (Nat.or_lt_two_pow hlow hhigh) hrow

/-- The bank/pipe selector has three bits (rule R153). -/
theorem bankPipe_lt (x y : Nat) : bankPipe x y < 8 := by
  have hbit {v m : Nat} (h : m < 2 ^ 3) : v &&& m < 2 ^ 3 := Nat.and_le_right.trans_lt h
  exact Nat.or_lt_two_pow (Nat.or_lt_two_pow (hbit (by decide)) (hbit (by decide))) (hbit (by decide))

/-- The seed has three bits (rule R76). -/
theorem seedBits_lt (d : Descriptor) : d.seedBits < 8 := Nat.and_le_right.trans_lt (by decide)

/-- A number `c` whose bits from bit 8 on are moved up by 3, with a 3-bit selector in the gap (rule R153). -/
theorem insertSelector_eq {sel : Nat} (hsel : sel < 8) (c : Nat) :
    sel <<< 8 ||| c &&& 0xFF ||| clearBits c 0xFF <<< 3 = 256 * sel + c % 256 + 2048 * (c / 256) := by
  have hlow : c % 2 ^ 8 < 2 ^ 8 := Nat.mod_lt _ (by decide)
  have hbelow : sel <<< 8 + c % 2 ^ 8 < 2 ^ 11 := by
    rw [Nat.shiftLeft_eq]
    omega
  have hrest : (2 ^ 8 * (c / 2 ^ 8)) <<< 3 = (c / 2 ^ 8) <<< 11 := by
    rw [Nat.shiftLeft_eq, Nat.shiftLeft_eq]
    omega
  rw [show (0xFF : Nat) = 2 ^ 8 - 1 from rfl, Nat.and_two_pow_sub_one_eq_mod, clearBits_mask, hrest,
    ← Nat.shiftLeft_add_eq_or_of_lt hlow, Nat.or_comm, ← Nat.shiftLeft_add_eq_or_of_lt hbelow, Nat.shiftLeft_eq,
    Nat.shiftLeft_eq]
  omega

/-- The macro offset as a number: the selector in bits 10:8, the low byte of `combined` below it, the rest above
(rule R153). -/
theorem macroOffset_eq (g : Geom) (bytes s x y : Nat) {seed : Nat} (hseed : seed < 8) :
    macroOffset g bytes seed s x y =
      256 * (bankPipe x y ^^^ seed) + macroCombined g bytes s x y % 256
        + 2048 * (macroCombined g bytes s x y / 256) :=
  insertSelector_eq (Nat.xor_lt_two_pow (n := 3) (bankPipe_lt x y) hseed) _

/-! ## Positions in row-major order -/

/-- The position of an element of a plane, row by row, is below the number of elements. -/
theorem rowMajor_lt {x y w h : Nat} (hx : x < w) (hy : y < h) : x + y * w < w * h := by
  calc x + y * w < w + y * w := Nat.add_lt_add_right hx _
    _ = w * (y + 1) := by ring
    _ ≤ w * h := Nat.mul_le_mul_left w hy

/-- The linear offset counts whole elements, slice by slice (rule R151). -/
theorem linearOffset_eq (g : Geom) (bytes s x y : Nat) :
    linearOffset g (8 * bytes) s x y = (x + y * g.pitch + s * (g.pitch * g.height)) * bytes := by
  unfold linearOffset
  rw [show (x + y * g.pitch + s * g.height * g.pitch) * (8 * bytes)
      = 8 * ((x + y * g.pitch + s * (g.pitch * g.height)) * bytes) by ring]
  exact Nat.mul_div_cancel_left _ (by decide)

/-- The micro offset counts whole elements: slice by slice, then 8 × 8 tile by tile, then by pixel index (rules R152,
R154). -/
theorem microOffset_eq (g : Geom) (bytes s x y : Nat) :
    microOffset g bytes s x y =
      (pixelIndex x y bytes + (x / 8 + y / 8 * (g.pitch / 8)) * 64 + s * (g.pitch * g.height)) * bytes := by
  unfold microOffset sliceBytes
  simp only [Nat.shiftRight_eq_div_pow, Nat.reducePow]
  ring

/-- `combined` of rule R153 counts an eighth of the elements: slice by slice, then 32 × 16 block by block, then by pixel
index (rule R154). -/
theorem macroCombined_eq {g : Geom} (hp : 32 ∣ g.pitch) (hh : 16 ∣ g.height) (bytes s x y : Nat) :
    macroCombined g bytes s x y =
      (pixelIndex x y bytes
        + (x / 32 + y / 16 * (g.pitch / 32) + s * (g.pitch / 32 * (g.height / 16))) * 64) * bytes := by
  obtain ⟨p, hp⟩ := hp
  obtain ⟨h, hh⟩ := hh
  unfold macroCombined sliceBytes
  simp only [Nat.shiftRight_eq_div_pow, Nat.reducePow, hp, hh, Nat.mul_div_cancel_left, Nat.ofNat_pos]
  rw [show (x / 32 + y / 16 * p) * (bytes * 512) + s * (32 * p * (16 * h) * bytes)
      = 8 * ((x / 32 + y / 16 * p + s * (p * h)) * 64 * bytes) by ring,
    Nat.mul_div_cancel_left _ (by decide)]
  ring

/-! ## Offsets below the number of elements -/

section
variable {g : Geom} {s x y : Nat} (hs : s < g.slices) (hx : x < g.pitch) (hy : y < g.height)
include hs hx hy

theorem linearOffset_lt {bytes : Nat} (hb : 0 < bytes) :
    linearOffset g (8 * bytes) s x y < g.pitch * g.height * g.slices * bytes := by
  rw [linearOffset_eq]
  exact Nat.mul_lt_mul_of_pos_right (rowMajor_lt (rowMajor_lt hx hy) hs) hb

theorem microOffset_lt (hp : 8 ∣ g.pitch) (hh : 8 ∣ g.height) {bytes : Nat} (hb : 0 < bytes) :
    microOffset g bytes s x y < g.pitch * g.height * g.slices * bytes := by
  have htile := rowMajor_lt (Nat.div_lt_div_of_lt_of_dvd hp hx) (Nat.div_lt_div_of_lt_of_dvd hh hy)
  have hplane : 64 * (g.pitch / 8 * (g.height / 8)) = g.pitch * g.height := by
    calc 64 * (g.pitch / 8 * (g.height / 8)) = (8 * (g.pitch / 8)) * (8 * (g.height / 8)) := by ring
      _ = g.pitch * g.height := by rw [Nat.mul_div_cancel' hp, Nat.mul_div_cancel' hh]
  have hpixel := rowMajor_lt (pixelIndex_lt x y bytes) htile
  rw [hplane] at hpixel
  rw [microOffset_eq]
  exact Nat.mul_lt_mul_of_pos_right (rowMajor_lt hpixel hs) hb

theorem macroCombined_lt (hp : 32 ∣ g.pitch) (hh : 16 ∣ g.height) {bytes : Nat} (hb : 0 < bytes) :
    8 * macroCombined g bytes s x y < g.pitch * g.height * g.slices * bytes := by
  have hblock := rowMajor_lt (Nat.div_lt_div_of_lt_of_dvd hp hx) (Nat.div_lt_div_of_lt_of_dvd hh hy)
  have hpixel := rowMajor_lt (pixelIndex_lt x y bytes) (rowMajor_lt hblock hs)
  have hplane : 8 * (64 * (g.pitch / 32 * (g.height / 16) * g.slices)) = g.pitch * g.height * g.slices := by
    calc 8 * (64 * (g.pitch / 32 * (g.height / 16) * g.slices))
        = (32 * (g.pitch / 32)) * (16 * (g.height / 16)) * g.slices := by ring
      _ = g.pitch * g.height * g.slices := by rw [Nat.mul_div_cancel' hp, Nat.mul_div_cancel' hh]
  rw [macroCombined_eq hp hh, ← hplane, Nat.mul_assoc]
  exact Nat.mul_lt_mul_of_pos_left (Nat.mul_lt_mul_of_pos_right hpixel hb) (by decide)

/-- The selector and the low byte of `combined` fill 2048 bytes, and `combined` places as many of them as fit the plane
when the plane is a whole number of them (rule R153). -/
theorem macroOffset_lt (hp : 32 ∣ g.pitch) (hh : 16 ∣ g.height) {bytes : Nat} (hb : 0 < bytes) {seed : Nat}
    (hseed : seed < 8) {n : Nat} (hn : g.pitch * g.height * g.slices * bytes ≤ 2048 * n) :
    macroOffset g bytes seed s x y < 2048 * n := by
  have hsel : bankPipe x y ^^^ seed < 2 ^ 3 := Nat.xor_lt_two_pow (bankPipe_lt x y) hseed
  have hcombined := macroCombined_lt hs hx hy hp hh hb
  rw [macroOffset_eq g bytes s x y hseed]
  omega

end

/-! ## Offsets below the size of the level -/

/-- The bits of an element are whole bytes (rules R8, R39). -/
theorem eight_mul_bytes (d : Descriptor) : 8 * d.bytes = d.bpp := by
  unfold Descriptor.bytes Descriptor.bpp
  rcases formatBpp_cases d.formatCode with h | h | h | h | h <;> rw [h]

theorem bytes_pos {d : Descriptor} (h : d.bpp ≠ 0) : 0 < d.bytes := by
  have := eight_mul_bytes d
  omega

/-- The size of a level in bytes (rule R109). -/
theorem levelSize_eq (d : Descriptor) (m : TileMode) (L : Nat) :
    (d.levelGeom specParams m L).size =
      (d.levelGeom specParams m L).pitch * (d.levelGeom specParams m L).height * (d.levelGeom specParams m L).slices
        * d.bytes * d.samples := by
  refine Nat.eq_of_mul_eq_mul_left (show 0 < 8 by decide) ?_
  rw [levelSize_exact, ← eight_mul_bytes]
  ring

/-- The 2D-thin1 blocks of all samples are whole groups of 2048 bytes: one block of 16-bit elements is 1024 bytes, and
then either the pitch counts two blocks or there are two samples (rule R108). -/
theorem tableAlign_thin2D_group {bpp samples : Nat} (hb : bpp ∈ [16, 32, 64, 128]) (hs : samples ∈ [1, 2, 4, 8]) :
    128 ∣ (tableAlign .thin2D bpp samples).pitch * (bpp / 8) * samples := by
  have htable : ∀ bpp ∈ [16, 32, 64, 128], ∀ samples ∈ [1, 2, 4, 8],
      128 ∣ (tableAlign .thin2D bpp samples).pitch * (bpp / 8) * samples := by decide
  exact htable bpp hb samples hs

section
variable {d : Descriptor} (hb : d.bpp ≠ 0) {m : TileMode} {L : Nat}
include hb

/-- The plane of a micro-tiled level is a whole number of tiles (rules R108, R109). -/
theorem levelGeom_micro_dvd
    (hm : (d.levelGeom specParams m L).mode = .thin1D ∨ (d.levelGeom specParams m L).mode = .thick1D) :
    8 ∣ (d.levelGeom specParams m L).pitch ∧ 8 ∣ (d.levelGeom specParams m L).height := by
  obtain ⟨hpitch, hheight⟩ := tableAlign_micro hm (bpp_mem hb) (samples_mem d)
  exact ⟨hpitch.trans (dvd_roundUp _ _), hheight.trans (dvd_roundUp _ _)⟩

/-- The plane of a 2D level is a whole number of blocks (rules R108, R109). -/
theorem levelGeom_block_dvd
    (hm : (d.levelGeom specParams m L).mode = .thin2D ∨ (d.levelGeom specParams m L).mode = .thick2D) :
    32 ∣ (d.levelGeom specParams m L).pitch ∧ 16 ∣ (d.levelGeom specParams m L).height := by
  obtain ⟨hpitch, hheight⟩ := tableAlign_block hm (bpp_mem hb) (samples_mem d)
  exact ⟨hpitch.trans (dvd_roundUp _ _), hheight.trans (dvd_roundUp _ _)⟩

/-- The size of a 2D-thin1 level is a whole number of groups of 2048 bytes (rules R108, R109). -/
theorem levelGeom_thin2D_size_dvd (hm : (d.levelGeom specParams m L).mode = .thin2D) :
    2048 ∣ (d.levelGeom specParams m L).size := by
  have hpitch : 128 ∣ (d.levelGeom specParams m L).pitch * d.bytes * d.samples := by
    refine (tableAlign_thin2D_group (bpp_mem hb) (samples_mem d)).trans ?_
    rw [levelGeom_pitch, hm]
    exact Nat.mul_dvd_mul_right (Nat.mul_dvd_mul_right (dvd_roundUp _ _) _) _
  obtain ⟨-, hheight⟩ := levelGeom_block_dvd hb (.inl hm)
  have hsize : (d.levelGeom specParams m L).size =
      (d.levelGeom specParams m L).pitch * d.bytes * d.samples * (d.levelGeom specParams m L).height
        * (d.levelGeom specParams m L).slices := by
    rw [levelSize_eq]
    ring
  rw [hsize]
  exact (Nat.mul_dvd_mul hpitch hheight).mul_right _

/-- Every element of a level's padded plane has its offset inside the level (rules R52, R155). -/
theorem elementOffset_lt_size {s x y off : Nat}
    (hplane : Geom.inPlane (d.levelGeom specParams m L) s x y = true)
    (hoff : d.elementOffset (d.levelGeom specParams m L) s x y = some off) :
    off < (d.levelGeom specParams m L).size := by
  obtain ⟨hs, hx, hy⟩ := (inPlane_iff _ _ _ _).1 hplane
  have hbytes := bytes_pos hb
  have hsample : (d.levelGeom specParams m L).pitch * (d.levelGeom specParams m L).height
      * (d.levelGeom specParams m L).slices * d.bytes ≤ (d.levelGeom specParams m L).size := by
    rw [levelSize_eq]
    exact Nat.le_mul_of_pos_right _ (samples_pos d)
  unfold Descriptor.elementOffset at hoff
  split at hoff
  case h_1 =>
    cases hoff
    rw [← eight_mul_bytes]
    exact (linearOffset_lt hs hx hy hbytes).trans_le hsample
  case h_2 hm =>
    cases hoff
    obtain ⟨hp, hh⟩ := levelGeom_micro_dvd hb (.inl hm)
    exact (microOffset_lt hs hx hy hp hh hbytes).trans_le hsample
  case h_3 hm =>
    cases hoff
    obtain ⟨hp, hh⟩ := levelGeom_micro_dvd hb (.inr hm)
    exact (microOffset_lt hs hx hy hp hh hbytes).trans_le hsample
  case h_4 hm =>
    cases hoff
    obtain ⟨hp, hh⟩ := levelGeom_block_dvd hb (.inl hm)
    obtain ⟨n, hn⟩ := levelGeom_thin2D_size_dvd hb hm
    rw [hn] at hsample ⊢
    exact macroOffset_lt hs hx hy hp hh hbytes (seedBits_lt d) hsample
  all_goals cases hoff

end

/-- GEOM and XLATE open a level that exists in a valid layout, with its geometry (rules R120, R150). -/
theorem selectLevel_ok {s : State} {g : Geom} (h : s.selectLevel = .ok g) : s.LevelReady ∧ g = s.levelHere := by
  rcases selectLevel_cases s with ⟨-, hs⟩ | ⟨-, -, hs⟩ | ⟨hv, hl, hs⟩ <;> cases hs.symm.trans h
  exact ⟨⟨hv, hl⟩, rfl⟩

/-- XLATE that reports success has translated an element of the level's plane (rules R150, R223). -/
theorem execXlate_ok {s t : State} (h : exec .xlate s = .next t) (ht : t.err = 0) :
    ∃ g off, s.translate = .ok (g, off) ∧
      t = { s with err := 0, lv := Geom.regs g, xlOffset := BitVec.ofNat 32 off } := by
  rcases execXlate_cases s with ⟨e, he, hx⟩ | ⟨g, off, hok, hx⟩ <;> cases hx.symm.trans h
  · have hcode : e.code = 0 := ht
    rcases translate_error he with rfl | rfl | rfl <;> exact absurd hcode (by decide)
  · exact ⟨g, off, hok, rfl⟩

/-- Settles O50: the element lies in the padded plane, and each address formula stays below the size of the plane. -/
theorem xlateStaysInThePlane : Obligations.XlateStaysInThePlane := by
  unfold Obligations.XlateStaysInThePlane
  intro s t hs h ht
  obtain ⟨g, off, hok, rfl⟩ := execXlate_ok h ht
  obtain ⟨hsel, hoff, hplane⟩ := (translate_ok_iff _ _ _).1 hok
  obtain ⟨hready, rfl⟩ := selectLevel_ok hsel
  have ⟨hv, _⟩ := hready
  obtain ⟨-, -, -, -, hsize, -⟩ := levelWritten_of_ready (t := { s with lv := Geom.regs s.levelHere }) hs hready rfl
  have hlt := elementOffset_lt_size (bpp_ne_zero_of_valid hs hv) hplane hoff
  calc (BitVec.ofNat 32 off).toNat ≤ off := by rw [BitVec.toNat_ofNat]; exact Nat.mod_le _ _
    _ < s.levelHere.size := hlt
    _ = (Geom.regs s.levelHere).size.toNat := hsize.symm

end Sys2Proof.Machine

/-! SUPPORT. The proofs of the family of 30_encoding.md: decode and encode, repeated writes, and the result codes of
each command. -/

namespace Sys2Proof

/-! ## Decode and encode -/

/-- The word of a command decodes to the command (rules R70, R71). -/
@[simp] theorem decode_encode (i : Instr) : decode (encode i) = some i := by
  have h : Laws.EncodeDecodes.Statement i := by
    cases i with
    | nop => exact Laws.EncodeDecodes.nop
    | calculate => exact Laws.EncodeDecodes.calculate
    | geom => exact Laws.EncodeDecodes.geom
    | xlate => exact Laws.EncodeDecodes.xlate
    | bc1 => exact Laws.EncodeDecodes.bc1
    | bc3 => exact Laws.EncodeDecodes.bc3
    | bc4 => exact Laws.EncodeDecodes.bc4
    | bc5 => exact Laws.EncodeDecodes.bc5
  obtain ⟨-, hdecode, -⟩ := h
  exact hdecode

/-- Settles O2: a command's word decodes to it, and no second word does. -/
theorem decodeIffEncode : Obligations.DecodeIffEncode := by
  unfold Obligations.DecodeIffEncode
  intro w i
  constructor
  · exact eq_encode_of_decode
  · rintro rfl
    exact decode_encode i

/-- Settles O1: each of the words is its command's. -/
theorem commandWordsDecode : Obligations.CommandWordsDecode := by
  unfold Obligations.CommandWordsDecode
  exact ⟨decode_encode .nop, decode_encode .calculate, decode_encode .geom, decode_encode .xlate, decode_encode .bc1,
    decode_encode .bc3, decode_encode .bc4, decode_encode .bc5⟩

/-- The command words of rule R71 as numbers. -/
theorem encode_toNat_mem (i : Instr) : (encode i).toNat ∈ [0x00, 0x01, 0x02, 0x03, 0x31, 0x33, 0x34, 0x35] := by
  cases i <;> decide

/-- Every word outside the list of rule R71 is reserved (rule R79). -/
theorem decode_eq_none {w : Word} (h : w.toNat ∉ [0x00, 0x01, 0x02, 0x03, 0x31, 0x33, 0x34, 0x35]) :
    decode w = none := by
  rw [Option.eq_none_iff_forall_ne_some]
  intro i hi
  rw [eq_encode_of_decode hi] at h
  exact h (encode_toNat_mem i)

namespace Machine

/-- A write of a reserved word to CMD raises BadCommand (rules R79, R220). -/
theorem servePort_reserved {w : Word} (h : decode w = none) (s : State) :
    servePort (.write 0x000 4 w) s = .next (s.raise .badCommand) := by
  rw [servePort_write (by decide), show (0x000 : BitVec 9) = Reg.cmd.offset from rfl]
  simp [writeOffset, runCommandWord, h]

/-- Settles O3. -/
theorem reservedWordRaisesBadCommand : Obligations.ReservedWordRaisesBadCommand := by
  unfold Obligations.ReservedWordRaisesBadCommand
  intro s w hw
  exact servePort_reserved (decode_eq_none hw) s

/-! ## Repeated writes -/

/-- A second host write of the same value changes nothing more (rule R56). -/
theorem hostWrite_hostWrite (s : State) (v : Word) (r : Reg) : (s.hostWrite v r).hostWrite v r = s.hostWrite v r := by
  cases r with
  | bcIn j => simp [State.hostWrite]
  | _ => rfl

/-- What XLATE computes is read from no register that XLATE writes (rules R81, R150). -/
theorem translate_results (s : State) (e : BitVec 4) (l : LevelRegs) (o : Word) :
    State.translate { s with err := e, lv := l, xlOffset := o } = s.translate := rfl

/-- A second CALC does what the first did (rule R119). -/
theorem execCalc_idempotent {s t : State} (h : execCalc s = .next t) : execCalc t = .next t := by
  rcases execCalc_cases s with ⟨e, he, hx⟩ | ⟨r, hr, hx⟩ <;> cases hx.symm.trans h
  · exact execCalc_of_error (s := s.raiseCalc e) he
  · exact execCalc_of_ok (s := (s.writeLayout r).succeed) (calculate_newDesc hr)

/-- GEOM reads no register that it writes (rules R81, R120). -/
theorem execGeom_idempotent {s t : State} (h : execGeom s = .next t) : execGeom t = .next t := by
  rcases execGeom_cases s with ⟨e, he, hx⟩ | ⟨g, hg, hx⟩ <;> cases hx.symm.trans h
  · exact execGeom_of_error (s := s.raise e) he
  · exact execGeom_of_ok (s := (s.writeLevel g).succeed) hg

theorem execXlate_idempotent {s t : State} (h : execXlate s = .next t) : execXlate t = .next t := by
  rcases execXlate_cases s with ⟨e, he, hx⟩ | ⟨g, off, hg, hx⟩ <;> cases hx.symm.trans h
  · exact execXlate_of_error (s := s.raise e) he
  · exact execXlate_of_ok ((translate_results s 0 (Geom.regs g) (BitVec.ofNat 32 off)).trans hg)

section
variable (s : State) (f : Fin 16 → Texel)

/-- A decoder's input is not among the registers that a decoder writes (rules R37, R38). -/
@[simp] theorem lowBlock_writeTexels : (s.writeTexels f).succeed.lowBlock = s.lowBlock := rfl

@[simp] theorem highBlock_writeTexels : (s.writeTexels f).succeed.highBlock = s.highBlock := rfl

theorem bc1Texel_writeTexels : (s.writeTexels f).succeed.bc1Texel = s.bc1Texel := by
  unfold State.bc1Texel; simp

theorem bc3Texel_writeTexels : (s.writeTexels f).succeed.bc3Texel = s.bc3Texel := by
  unfold State.bc3Texel; simp

theorem bc4Texel_writeTexels : (s.writeTexels f).succeed.bc4Texel = s.bc4Texel := by
  unfold State.bc4Texel; simp

theorem bc5Texel_writeTexels : (s.writeTexels f).succeed.bc5Texel = s.bc5Texel := by
  unfold State.bc5Texel; simp

theorem writeTexels_writeTexels : ((s.writeTexels f).succeed.writeTexels f).succeed = (s.writeTexels f).succeed := by
  unfold State.writeTexels; rfl

end

/-- A decoder whose texels do not depend on what it writes does the same again (rules R81, R170). -/
theorem decoder_idempotent (texels : State → Fin 16 → Texel)
    (hread : ∀ s f, texels (s.writeTexels f).succeed = texels s) {s t : State}
    (h : (.next (s.writeTexels (texels s)).succeed : Host.Outcome State Fault Refusal) = .next t) :
    (.next (t.writeTexels (texels t)).succeed : Host.Outcome State Fault Refusal) = .next t := by
  cases h
  rw [hread, writeTexels_writeTexels]

/-- A command run again with no access between leaves the state of the first run (rules R56, R81, R119). -/
theorem exec_idempotent {i : Instr} {s t : State} (h : exec i s = .next t) : exec i t = .next t := by
  cases i with
  | calculate => exact execCalc_idempotent h
  | geom => exact execGeom_idempotent h
  | xlate => exact execXlate_idempotent h
  | nop => cases h; rfl
  | bc1 => exact decoder_idempotent State.bc1Texel bc1Texel_writeTexels h
  | bc3 => exact decoder_idempotent State.bc3Texel bc3Texel_writeTexels h
  | bc4 => exact decoder_idempotent State.bc4Texel bc4Texel_writeTexels h
  | bc5 => exact decoder_idempotent State.bc5Texel bc5Texel_writeTexels h

/-- Settles O16, from what a write can be: a command, a reserved word, a register write, or a write to no register. -/
theorem everyWriteIsIdempotent : Obligations.EveryWriteIsIdempotent := by
  unfold Obligations.EveryWriteIsIdempotent
  intro s t o width v h
  rcases servePort_cases (.write o width v) s with ⟨-, hx⟩ | ⟨he, -⟩ | ⟨o', he, -⟩ | ⟨w, i, he, hd, hx⟩ |
      ⟨w, he, hd, hx⟩ | ⟨r, v', hr, he, hx⟩ | ⟨o', v', -, -, hx⟩
  · cases hx.symm.trans h
  · cases he
  · cases he
  · rw [he, servePort_command hd]
    exact exec_idempotent (hx.symm.trans h)
  · cases hx.symm.trans h
    rw [he, servePort_reserved hd]
    rfl
  · cases hx.symm.trans h
    rw [he, servePort_write_reg hr, hostWrite_hostWrite]
  · cases hx.symm.trans h
    exact h

/-! ## The result codes of each command -/

/-- Settles O22, from the errors of CALC's computation, of the opening of GEOM, and of XLATE's computation. -/
theorem errorsOfEachCommand : Obligations.ErrorsOfEachCommand := by
  unfold Obligations.ErrorsOfEachCommand
  intro i s t h
  rcases exec_cases i s with ⟨rfl, e, he, hx⟩ | ⟨rfl, r, -, hx⟩ | ⟨rfl, e, he, hx⟩ | ⟨rfl, g, -, hx⟩ |
      ⟨rfl, e, he, hx⟩ | ⟨rfl, g, off, -, hx⟩ | ⟨hi, t', hx⟩ | ⟨rfl, hx⟩ <;> cases hx.symm.trans h
  · rw [State.raiseCalc_err]
    rcases calculate_error he with rfl | rfl | rfl <;> decide
  · simp
  · rw [State.raise_err]
    rcases selectLevel_error he with rfl | rfl <;> decide
  · simp
  · rw [State.raise_err]
    rcases translate_error he with rfl | rfl | rfl <;> decide
  · simp
  · rcases hi with rfl | rfl | rfl | rfl <;> simp
  · simp

end Machine

end Sys2Proof

/-! SUPPORT. The proofs of the family of 30_encoding.md: where macro-tiling degrades in a mip chain, and the bits of
SWIZZLE that say so. -/

namespace Sys2Proof.Machine

open Sys2Proof.Rules

/-! ## Macro-tiled levels -/

/-- A level above 0 is macro-tiled where level 0 is, unless the level is a small one of a mode that goes to micro tiles
(rule R107). -/
theorem levelTileMode_isMacro_iff {L : Nat} (hL : L ≠ 0) (m : TileMode) (ew eh n : Nat) :
    (levelTileMode m L ew eh n).isMacro = true ↔
      m.isMacro = true ∧ (m = .thin2D ∨ m = .thick2D → ¬ (nextPow2 ew < 32 ∨ nextPow2 eh < 16)) := by
  cases m with
  | thin2D | thick2D =>
    by_cases hsmall : nextPow2 ew < 32 ∨ nextPow2 eh < 16 <;> by_cases hfew : nextPow2 n < 4 <;>
      simp [levelTileMode_eq hL, hsmall, hfew, TileMode.isMacro, TileMode.code]
  | thick1D => by_cases hfew : nextPow2 n < 4 <;> simp [levelTileMode_eq hL, hfew, TileMode.isMacro, TileMode.code]
  | default | linearAligned | thin1D | linearSpecial | reserved => simp [levelTileMode_eq hL]

/-- A level is at least as small as one before it (rule R105). -/
theorem smallExtents_of_le (d : Descriptor) {L L' : Nat} (h : L ≤ L')
    (hs : nextPow2 (d.elemWidth L) < 32 ∨ nextPow2 (d.elemHeight L) < 16) :
    nextPow2 (d.elemWidth L') < 32 ∨ nextPow2 (d.elemHeight L') < 16 := by
  have hw : d.elemWidth L' ≤ d.elemWidth L := inElements_mono d (levelWidth_antitone d h)
  have hh : d.elemHeight L' ≤ d.elemHeight L := inElements_mono d (levelHeight_antitone d h)
  exact hs.imp (nextPow2_mono hw).trans_lt (nextPow2_mono hh).trans_lt

theorem modeAt_eq (d : Descriptor) (m : TileMode) (L : Nat) :
    modeAt d m L = levelTileMode m L (d.elemWidth L) (d.elemHeight L) (d.levelSlices L) := rfl

@[simp] theorem modeAt_zero (d : Descriptor) (m : TileMode) : modeAt d m 0 = m := rfl

/-- A macro-tiled level is preceded only by macro-tiled levels (the inference of R107). -/
theorem modeAt_isMacro_of_le (d : Descriptor) (m : TileMode) {L L' : Nat} (h : L ≤ L')
    (hm : (modeAt d m L').isMacro = true) : (modeAt d m L).isMacro = true := by
  rcases Nat.eq_zero_or_pos L' with rfl | hL'
  · rwa [Nat.le_zero.1 h]
  · obtain ⟨hmacro, hbig⟩ := (levelTileMode_isMacro_iff hL'.ne' ..).1 hm
    rcases Nat.eq_zero_or_pos L with rfl | hL
    · exact hmacro
    · exact (levelTileMode_isMacro_iff hL.ne' ..).2 ⟨hmacro, fun hk hs => hbig hk (smallExtents_of_le d h hs)⟩

/-! ## The degrading level -/

/-- A level degrades exactly where it is the first that is not macro-tiled (rules R107, R113). -/
theorem degradesAt_succ_iff (d : Descriptor) (m : TileMode) (k : Nat) :
    degradesAt d m (k + 1) ↔ (modeAt d m k).isMacro = true ∧ (modeAt d m (k + 1)).isMacro = false := by
  constructor
  · rintro ⟨hm, hlevel, hone | hprev⟩
    · obtain rfl : k = 0 := by omega
      exact ⟨hm, hlevel⟩
    · exact ⟨hprev, hlevel⟩
  · rintro ⟨hprev, hlevel⟩
    exact ⟨modeAt_isMacro_of_le d m (Nat.zero_le k) hprev, hlevel, .inr hprev⟩

/-- No level after a degrading one degrades (rule R113). -/
theorem not_degradesAt_of_lt {d : Descriptor} {m : TileMode} {L L' : Nat} (h : degradesAt d m L) (hlt : L < L') :
    ¬ degradesAt d m L' := by
  obtain ⟨k, rfl⟩ : ∃ k, L' = k + 1 := ⟨L' - 1, by omega⟩
  obtain ⟨-, hmicro, -⟩ := h
  intro h'
  obtain ⟨hprev, -⟩ := (degradesAt_succ_iff d m k).1 h'
  rw [modeAt_isMacro_of_le d m (Nat.le_of_lt_succ hlt) hprev] at hmicro
  cases hmicro

/-- A step tracks a macro mode on where the walk has one before it and the level is macro-tiled (rule R113). -/
theorem step_cur_isMacro (w : Walk) (g : Geom) (L : Nat) :
    (w.step g L).cur.isMacro = (w.cur.isMacro && g.mode.isMacro) := by
  cases hcur : w.cur.isMacro <;> cases hlevel : g.mode.isMacro <;> simp [Walk.step, Walk.degradesAt, hcur, hlevel]

section
variable (d : Descriptor) (m : TileMode) (sw : Word)

/-- The mode that the walk tracks is macro-tiled exactly where the level before is (rule R113). -/
theorem mipWalk_cur_isMacro (k : Nat) :
    (d.mipWalk specParams m sw (k + 1)).cur.isMacro = (modeAt d m k).isMacro := by
  induction k with
  | zero => rfl
  | succ k ih =>
    have hprev : (modeAt d m (k + 1)).isMacro = true → (modeAt d m k).isMacro = true :=
      modeAt_isMacro_of_le d m k.le_succ
    rw [mipWalk_succ _ d m sw (by omega), step_cur_isMacro, ih]
    exact Bool.and_eq_right_iff_imp.2 hprev

/-- The walk degrades at the degrading level and at no other (rules R113, R115). -/
theorem mipWalk_degradesAt_iff (k : Nat) :
    (d.mipWalk specParams m sw (k + 1)).degradesAt (d.levelGeom specParams m (k + 1)) = true ↔
      degradesAt d m (k + 1) := by
  unfold Walk.degradesAt
  rw [mipWalk_cur_isMacro, degradesAt_succ_iff, Bool.and_eq_true, Bool.not_eq_true']
  rfl

theorem mipWalk_swizzle_of_degradesAt {k : Nat} (h : degradesAt d m (k + 1)) :
    (d.mipWalk specParams m sw (k + 2)).swizzle =
      stampDegrade (d.mipWalk specParams m sw (k + 1)).swizzle (k + 1) := by
  rw [mipWalk_succ _ d m sw (by omega)]
  exact if_pos ((mipWalk_degradesAt_iff d m sw k).2 h)

theorem mipWalk_swizzle_of_not_degradesAt {k : Nat} (h : ¬ degradesAt d m (k + 1)) :
    (d.mipWalk specParams m sw (k + 2)).swizzle = (d.mipWalk specParams m sw (k + 1)).swizzle := by
  rw [mipWalk_succ _ d m sw (by omega)]
  exact if_neg (mt (mipWalk_degradesAt_iff d m sw k).1 h)

/-- A walk without a degrading level keeps SWIZZLE (rule R115). -/
theorem mipWalk_swizzle_eq_self {k : Nat} (h : ∀ L, 1 ≤ L → L ≤ k → ¬ degradesAt d m L) :
    (d.mipWalk specParams m sw (k + 1)).swizzle = sw := by
  induction k with
  | zero => rfl
  | succ k ih =>
    rw [mipWalk_swizzle_of_not_degradesAt d m sw (h (k + 1) (by omega) le_rfl)]
    exact ih fun L h1 hk => h L h1 (by omega)

/-! ## Bits 23:16 of SWIZZLE -/

theorem extractLsb'_field : (sw.extractLsb' 16 8).toNat = sw.toNat / 65536 % 256 := by
  rw [BitVec.extractLsb'_toNat, Nat.shiftRight_eq_div_pow]

/-- Bits 23:16 are cleared (rule R103). -/
theorem extractLsb'_clearDegrade : (clearDegrade sw).extractLsb' 16 8 = 0 := by
  unfold clearDegrade
  rw [BitVec.extractLsb'_and]
  exact BitVec.and_zero

theorem clearDegrade_field : (clearDegrade sw).toNat / 65536 % 256 = 0 := by
  rw [← extractLsb'_field, extractLsb'_clearDegrade]
  rfl

/-- What is put into cleared bits 23:16 stands there alone. -/
theorem clearDegrade_or_field (x : Word) :
    (clearDegrade sw ||| x).toNat / 65536 % 256 = x.toNat / 65536 % 256 := by
  rw [← extractLsb'_field, ← extractLsb'_field, BitVec.extractLsb'_or, extractLsb'_clearDegrade]
  exact congrArg BitVec.toNat BitVec.zero_or

/-- The stamp writes the level into bits 23:16 (rule R115). -/
theorem stampDegrade_field {L : Nat} (hL : L < 256) : (stampDegrade sw L).toNat / 65536 % 256 = L := by
  unfold stampDegrade
  rw [clearDegrade_or_field, BitVec.toNat_ofNat, Nat.shiftLeft_eq]
  omega

/-- A macro mode has the marker in bits 23:16 (rule R103). -/
theorem initSwizzle_field_of_isMacro (h : m.isMacro = true) :
    (initSwizzle specParams sw m).toNat / 65536 % 256 = 13 := by
  unfold initSwizzle
  rw [if_pos h, clearDegrade_or_field]
  rfl

/-- After a degrading level, bits 23:16 hold that level (rule R115). -/
theorem mipWalk_swizzle_field {k L : Nat} (h1 : 1 ≤ L) (hk : L ≤ k) (hL : L < 256) (h : degradesAt d m L) :
    (d.mipWalk specParams m sw (k + 1)).swizzle.toNat / 65536 % 256 = L := by
  induction k, hk using Nat.le_induction with
  | base =>
    obtain ⟨j, rfl⟩ : ∃ j, L = j + 1 := ⟨L - 1, by omega⟩
    rw [mipWalk_swizzle_of_degradesAt d m sw h, stampDegrade_field _ hL]
  | succ k hk ih => rw [mipWalk_swizzle_of_not_degradesAt d m sw (not_degradesAt_of_lt h (by omega)), ih]

end

/-! ## SWIZZLE after CALC -/

/-- CALC's extent check leaves at most 14 levels, whatever the other two say (rules R101, R104). -/
theorem mipCount_le_of_not_tooBig {d : Descriptor} (h : ¬ tooBig d) : d.mipCount ≤ 14 := by
  simp only [tooBig, not_or, not_and, Nat.not_le] at h
  obtain ⟨hw, hh, hd⟩ := h
  exact mipCount_le (by omega) hw hh fun h3 => hd ((dimension_eq_d3_iff d).1 h3)

/-- Level 0 writes bits 23:16 of SWIZZLE only (rules R103, R111). -/
@[simp] theorem clearDegrade_levelZero (d : Descriptor) :
    clearDegrade (d.levelZero specParams).swizzle = clearDegrade d.swizzle := by
  rcases levelZero_cases d with ⟨hz, -⟩ | ⟨-, m, -, -, hz⟩ <;> rw [hz] <;> simp

/-- Level 0 that is not macro-tiled leaves bits 23:16 at 0 (rules R103, R111). -/
theorem levelZero_field_of_not_isMacro {d : Descriptor} (h : (d.levelZero specParams).mode.isMacro = false) :
    (d.levelZero specParams).swizzle.toNat / 65536 % 256 = 0 := by
  rw [← initSwizzle_levelZero, initSwizzle_of_not_isMacro _ _ h, clearDegrade_field]

/-- Level 0 that is macro-tiled leaves the marker in bits 23:16 (rule R103). -/
theorem levelZero_field_of_isMacro {d : Descriptor} (h : (d.levelZero specParams).mode.isMacro = true) :
    (d.levelZero specParams).swizzle.toNat / 65536 % 256 = 13 := by
  rw [← initSwizzle_levelZero, initSwizzle_field_of_isMacro _ _ h]

/-- Settles O40, from the bits that level 0 leaves and the levels at which the walk stamps them. -/
theorem swizzleAfterCalc : Obligations.SwizzleAfterCalc := by
  unfold Obligations.SwizzleAfterCalc
  rintro d r hsmall rfl
  have hcount := mipCount_le_of_not_tooBig hsmall
  obtain ⟨k, hk⟩ : ∃ k, d.mipCount = k + 1 := ⟨d.mipCount - 1, by have := one_le_mipCount d; omega⟩
  simp only [Descriptor.layoutResult, hk]
  refine ⟨?_, fun hmicro => ?_, fun L h1 hL hdeg => ?_, fun hmacro hnone => ?_⟩
  · exact (clearDegrade_mipWalk _ _ _ _ (by omega) (by omega)).trans (clearDegrade_levelZero d)
  · have hnone : ∀ L, 1 ≤ L → L ≤ k → ¬ degradesAt d (d.levelZero specParams).mode L := by
      rintro L - - ⟨hmacro, -⟩
      rw [hmicro] at hmacro
      cases hmacro
    rw [mipWalk_swizzle_eq_self _ _ _ hnone, levelZero_field_of_not_isMacro hmicro]
  · exact mipWalk_swizzle_field _ _ _ h1 (by omega) (by omega) hdeg
  · rw [mipWalk_swizzle_eq_self _ _ _ fun L h1 hL => hnone L h1 (by omega), levelZero_field_of_isMacro hmacro]

end Sys2Proof.Machine

/-! SUPPORT. The proofs of the family of 40_layout.md: CALC's checks, the tile mode and the number of levels that it
resolves, and the mip chain. -/

namespace Sys2Proof.Machine

open Sys2Proof.Rules

/-! ## Levels that do not exist -/

theorem selectLevel_of_missing {s : State} (hv : s.layoutValid = true)
    (hl : s.desc.mipLevels.toNat ≤ s.xl.level.toNat) : s.selectLevel = .error .coordOutOfRange := by
  rcases selectLevel_cases s with ⟨hv', -⟩ | ⟨-, -, hs⟩ | ⟨-, hl', -⟩
  · simp [hv] at hv'
  · exact hs
  · omega

/-- XLATE raises what its opening raises, before any other check (rules R150, R225). -/
theorem translate_of_selectLevel_error {s : State} {e : ErrCode} (h : s.selectLevel = .error e) :
    s.translate = .error e := by
  unfold State.translate; rw [h]

/-- Settles O25: the opening that GEOM and XLATE share fails. -/
theorem missingLevelStops : Obligations.MissingLevelStops := by
  unfold Obligations.MissingLevelStops
  intro s hv hl
  have hsel := selectLevel_of_missing hv hl
  exact ⟨execGeom_of_error hsel, execXlate_of_error (translate_of_selectLevel_error hsel)⟩

/-! ## The alignment table -/

/-- Settles O35, over the sixteen pairs of bits per element and sample count. -/
theorem alignmentTable : Obligations.AlignmentTable := by
  unfold Obligations.AlignmentTable
  decide

/-! ## CALC's checks -/

/-- The first check of rule R101 on the raw registers. -/
theorem tooBig_iff (d : Descriptor) :
    tooBig d ↔ 0x4000 ≤ d.width.toNat ∨ 0x4000 ≤ d.height.toNat ∨ (d.dimension = .d3 ∧ 0x4000 ≤ d.depth.toNat) := by
  rw [dimension_eq_d3_iff]; rfl

/-- CALC's check by the first clause of rule R101 that fails, on the raw registers. -/
theorem calcCheck_eq (d : Descriptor) [Decidable (tooBig d)] [Decidable (supported d)] [Decidable (modeAssigned d)] :
    d.calcCheck =
      if tooBig d then some .imageTooBig
      else if ¬ supported d then some .formatNotSupported
      else if ¬ modeAssigned d then some .tileModeNotSupported
      else none := by
  unfold Descriptor.calcCheck
  simp only [tooBig_iff, supported_iff_bpp_ne_zero, ← isAssigned_requestedMode_iff, ne_eq, Decidable.not_not,
    Bool.not_eq_true]

theorem calculate_of_calcCheck {P : LayoutParams} {d : Descriptor} {e : ErrCode} (h : d.calcCheck = some e) :
    d.calculate P = .error e := by
  unfold Descriptor.calculate; rw [h]

/-- CALC's computation where the checks pass and a value does not fit (rule R121). -/
theorem calculate_of_not_fits {P : LayoutParams} {d : Descriptor} (hc : d.calcCheck = none)
    (hf : (d.layoutResult P).fits = false) : d.calculate P = .error .imageTooBig := by
  unfold Descriptor.calculate; simp [hc, hf]

/-- Settles O29: CALC raises the error of the first check that fails. -/
theorem calcChecksInOrder : Obligations.CalcChecksInOrder := by
  unfold Obligations.CalcChecksInOrder
  classical
  intro s
  have hfail (e : ErrCode) (h : s.desc.calcCheck = some e) : exec .calculate s = .next (s.raiseCalc e) :=
    execCalc_of_error (calculate_of_calcCheck h)
  refine ⟨fun hbig => hfail .imageTooBig ?_, fun hbig hsup => hfail .formatNotSupported ?_,
    fun hbig hsup hmode => hfail .tileModeNotSupported ?_⟩
  · rw [calcCheck_eq, if_pos hbig]
  · rw [calcCheck_eq, if_neg hbig, if_pos hsup]
  · rw [calcCheck_eq, if_neg hbig, if_neg (not_not.2 hsup), if_pos hmode]

/-- Settles O30: the checks pass and the bound check fails. -/
theorem calcBoundCheck : Obligations.CalcBoundCheck := by
  unfold Obligations.CalcBoundCheck
  intro s hchecked hbounded
  have hfits : (s.desc.layoutResult specParams).fits = false := by
    rw [← Bool.not_eq_true, fits_iff_bounded]
    exact hbounded
  exact execCalc_of_error (calculate_of_not_fits ((calcCheck_eq_none_iff_checked _).2 hchecked) hfits)

/-! ## The tile mode that CALC resolves -/

/-- The request `default` is the code 0 (rule R74). -/
theorem requestedMode_eq_default_iff (d : Descriptor) : d.requestedMode = .default ↔ d.tileMode = 0 := by
  constructor
  · intro h
    have hcode := TileMode.code_ofCode d.tileMode
    rw [show TileMode.ofCode d.tileMode = .default from h] at hcode
    exact hcode.symm
  · intro h
    unfold Descriptor.requestedMode
    rw [h]
    rfl

theorem isAuto_iff (d : Descriptor) : d.isAuto = true ↔ d.tileMode = 0 := by
  rw [← requestedMode_eq_default_iff]
  simp [Descriptor.isAuto]

/-- What the request `default` resolves to, on the raw registers (rules R72, R73, R102). -/
theorem defaultMode_eq (d : Descriptor) :
    d.defaultMode =
      if d.dim = 0 ∧ d.aa = 0 ∧ d.usage &&& 4 = 0 then .linearAligned
      else if d.dim = 6 ∧ d.usage &&& 2 = 0 then .thick2D else .thin2D := by
  have hdim : ∀ c : BitVec 3, Dimension.ofCode c = .d1 ↔ c = 0 := by decide
  have hdepth : ∀ u : BitVec 4, u.getLsbD 2 = false ↔ u &&& 4 = 0 := by decide
  have hcolor : ∀ u : BitVec 4, u.getLsbD 1 = false ↔ u &&& 2 = 0 := by decide
  unfold Descriptor.defaultMode Descriptor.depthBuffer Descriptor.colorBuffer
  simp only [dimension_eq_d3_iff, hdepth, hcolor, show d.dimension = .d1 ↔ d.dim = 0 from hdim d.dim]

/-- Of the modes that `default` resolves to, 2D-thick alone is thick (rules R75, R102). -/
theorem defaultMode_isThick_iff (d : Descriptor) : d.defaultMode.isThick = true ↔ d.defaultMode = .thick2D := by
  unfold Descriptor.defaultMode
  split_ifs <;> decide

/-- A request other than `default` is the mode that CALC keeps, whether or not the check accepts it (rule R100). -/
theorem levelZero_mode_of_request {d : Descriptor} (h : d.tileMode ≠ 0) :
    (d.levelZero specParams).mode = d.requestedMode := by
  have hauto : d.isAuto = false := by rw [← Bool.not_eq_true, isAuto_iff]; exact h
  rcases levelZero_cases d with ⟨hz, -⟩ | ⟨⟨ha, -⟩, -⟩
  · rw [hz]
    simp [Descriptor.startMode, hauto]
  · simp [hauto] at ha

/-- The request `default` becomes the default mode, or its micro-tiled mode where level 0 falls back (rules R102,
R111). -/
theorem levelZero_mode_of_default {d : Descriptor} (h : d.tileMode = 0) :
    (d.levelZero specParams).mode =
      if d.elemWidth 0 < (d.levelGeom specParams d.defaultMode 0).pitchAlign ∧
          d.elemHeight 0 < (d.levelGeom specParams d.defaultMode 0).heightAlign then
        (if d.defaultMode = .thick2D then .thick1D else .thin1D)
      else d.defaultMode := by
  have hauto := (isAuto_iff d).2 h
  have hstart : d.startMode = d.defaultMode := by simp [Descriptor.startMode, hauto]
  have hbelow (g : Geom) : bothBelowAlign (d.elemWidth 0) (d.elemHeight 0) g = true ↔
      d.elemWidth 0 < g.pitchAlign ∧ d.elemHeight 0 < g.heightAlign := by simp [bothBelowAlign]
  rcases levelZero_cases d with ⟨hz, hstay⟩ | ⟨⟨-, hfall⟩, m, -, hm, hz⟩
  · rw [hstart, hbelow] at hstay
    rw [hz, if_neg fun hlt => hstay ⟨hauto, hlt⟩, hstart]
  · rw [hstart, hbelow] at hfall
    rw [hz, if_pos hfall, hm, hstart]
    simp only [defaultMode_isThick_iff]

/-- Settles O32, from the mode that level 0 keeps for each request. -/
theorem calcResolvesTheTileMode : Obligations.CalcResolvesTheTileMode := by
  unfold Obligations.CalcResolvesTheTileMode
  intro d
  refine ⟨levelZero_mode_of_request, ?_, levelZero_geom d⟩
  rintro h m rfl
  rw [← defaultMode_eq]
  exact levelZero_mode_of_default h

/-! ## The number of levels -/

/-- The number of levels of a request above 1: the least that every extent that counts fits (rule R104). -/
theorem mipCount_le_iff {d : Descriptor} (hr : 1 < d.mipLevels.toNat) {n : Nat} (hn : 1 ≤ n) :
    d.mipCount ≤ n ↔
      d.width.toNat < 2 ^ n ∧ (1 < d.dim.toNat → d.height.toNat < 2 ^ n) ∧ (d.dim = 6 → d.depth.toNat < 2 ^ n) := by
  have honeDim : d.dimension.isOneDim = true ↔ d.dim.toNat ≤ 1 := by
    have htable : ∀ c : BitVec 3, (Dimension.ofCode c).isOneDim = true ↔ c.toNat ≤ 1 := by decide
    exact htable d.dim
  have hheight : bitLen (if d.dimension.isOneDim then 1 else d.height.toNat) ≤ n ↔
      (1 < d.dim.toNat → d.height.toNat < 2 ^ n) := by
    rw [bitLen_le_iff]
    by_cases h1 : d.dim.toNat ≤ 1
    · simp [honeDim.2 h1, Nat.not_lt.2 h1, Nat.one_lt_two_pow (show n ≠ 0 by omega)]
    · simp [mt honeDim.1 h1, Nat.not_le.1 h1]
  have hdepth : (if d.dimension = .d3 then bitLen d.depth.toNat else 0) ≤ n ↔
      (d.dim = 6 → d.depth.toNat < 2 ^ n) := by
    rw [← dimension_eq_d3_iff]
    by_cases h3 : d.dimension = .d3
    · simp [h3, bitLen_le_iff]
    · simp [h3]
  unfold Descriptor.mipCount
  rw [if_neg (by omega)]
  simp only [max_le_iff, bitLen_le_iff d.width.toNat, hheight, hdepth, hn, and_true, and_assoc]

/-- Settles O33. -/
theorem mipCountIsTheFullChain : Obligations.MipCountIsTheFullChain := by
  unfold Obligations.MipCountIsTheFullChain
  exact fun d => ⟨mipCount_of_le_one, one_le_mipCount d, fun hr _ hn => mipCount_le_iff hr hn⟩

/-! ## The mode of a level -/

/-- `NextPow2(v)` is the least power of two from `v` on (rule R6). -/
theorem nextPow2_lt_iff_below {v : Nat} (hv : 0 < v) (n : Nat) : nextPow2 v < n ↔ nextPow2Below v n := by
  constructor
  · exact fun h => ⟨bitLen (v - 1), (nextPow2_le_iff hv _).1 le_rfl, h⟩
  · rintro ⟨k, hle, hlt⟩
    exact ((nextPow2_le_iff hv k).2 hle).trans_lt hlt

theorem smallerThanBlock_iff (d : Descriptor) (L : Nat) :
    smallerThanBlock d L ↔ nextPow2 (d.elemWidth L) < 32 ∨ nextPow2 (d.elemHeight L) < 16 := by
  rw [nextPow2_lt_iff_below (elemWidth_pos d L), nextPow2_lt_iff_below (elemHeight_pos d L)]
  rfl

theorem tooFewSlices_iff (d : Descriptor) (L : Nat) : tooFewSlices d L ↔ nextPow2 (d.levelSlices L) < 4 :=
  (nextPow2_lt_iff_below (levelSlices_pos d L) 4).symm

/-- The downgrades of rule R107 at a level above 0, with its two thresholds as facts about the level. -/
theorem modeAt_of_pos (d : Descriptor) (m : TileMode) {L : Nat} (hL : 1 ≤ L) [Decidable (smallerThanBlock d L)]
    [Decidable (tooFewSlices d L)] :
    modeAt d m L =
      if smallerThanBlock d L then
        if m = .thin2D ∨ (m = .thick2D ∨ m = .thick1D) ∧ tooFewSlices d L then .thin1D
        else if m = .thick2D then .thick1D
        else m
      else if tooFewSlices d L then (if m = .thick2D then .thin2D else if m = .thick1D then .thin1D else m)
      else m := by
  rw [modeAt_eq, levelTileMode_eq (by omega)]
  simp only [smallerThanBlock_iff, tooFewSlices_iff]

/-- Settles O37, from the downgrades of rule R107 and from extents that never grow. -/
theorem macroTilingNeverReturns : Obligations.MacroTilingNeverReturns := by
  unfold Obligations.MacroTilingNeverReturns
  classical
  refine ⟨modeAt_zero, fun d L hL => ?_, fun d m L L' hle hmicro => ?_⟩
  · simp only [modeAt_of_pos d _ hL]
    refine ⟨?_, ?_, ?_, ?_, ?_, ?_, ?_, ?_, ?_⟩
    · intro hfew hbig; simp [hfew, hbig]
    · intro hfew hsmall; simp [hfew, hsmall]
    · intro hmany hsmall; simp [hmany, hsmall]
    · intro hmany hbig; simp [hmany, hbig]
    · intro hsmall; simp [hsmall]
    · intro hbig; simp [hbig]
    · intro hfew; simp [hfew]
    · intro hmany; simp [hmany]
    · intro m hm
      simp only [List.mem_cons, List.not_mem_nil, or_false, not_or] at hm
      simp [hm]
  · rw [← Bool.not_eq_true] at hmicro ⊢
    exact mt (modeAt_isMacro_of_le d m hle) hmicro

end Sys2Proof.Machine

/-! SUPPORT. The proofs of the family of 40_layout.md: the offsets of the mip chain, and the levels that GEOM writes. -/

namespace Sys2Proof.Machine

open Sys2Proof.Rules

/-! ## The mip chain -/

section
variable (P : LayoutParams) (d : Descriptor) (m : TileMode) (sw : Word)

/-- The walk leaves the offset of a level for the next one (rules R113, R116). -/
theorem mipWalk_prevOff (k : Nat) :
    (d.mipWalk P m sw (k + 2)).prevOff = (d.mipWalk P m sw (k + 1)).offsetAt (d.levelGeom P m (k + 1)) (k + 1) := by
  rw [mipWalk_succ P d m sw (by omega)]
  rfl

/-- The walk leaves the size of a level for the next one (rules R113, R116). -/
theorem mipWalk_prevSize (k : Nat) : (d.mipWalk P m sw (k + 2)).prevSize = (d.levelGeom P m (k + 1)).size := by
  rw [mipWalk_succ P d m sw (by omega)]
  rfl

/-- The walk lists the offset of each level (rule R113). -/
theorem mipWalk_offsets (k : Nat) :
    (d.mipWalk P m sw (k + 1)).offsets = (List.range k).map fun i => (d.mipWalk P m sw (i + 2)).prevOff := by
  induction k with
  | zero => rfl
  | succ k ih =>
    rw [mipWalk_succ P d m sw (by omega), List.range_succ]
    simp [Walk.step, ih, mipWalk_prevOff]

end

/-- The low half of SWIZZLE does not depend on bits 23:16 (rules R103, R115). -/
theorem lowHalf_of_clearDegrade_eq {sw sw' : Word} (h : clearDegrade sw' = clearDegrade sw) :
    sw'.toNat % 65536 = sw.toNat % 65536 := by
  have hlow (v : Word) : (clearDegrade v).extractLsb' 0 16 = v.extractLsb' 0 16 := by
    unfold clearDegrade
    rw [BitVec.extractLsb'_and]
    exact BitVec.and_allOnes
  have hnum (v : Word) : v.toNat % 65536 = (v.extractLsb' 0 16).toNat := by
    rw [BitVec.extractLsb'_toNat]; rfl
  rw [hnum, hnum, ← hlow, h, hlow]

/-- There are at most 32 levels, since each extent has 32 bits (rules R24, R104). -/
theorem mipCount_le_width (d : Descriptor) : d.mipCount ≤ 32 :=
  mipCount_le (by decide) d.width.isLt d.height.isLt fun _ => d.depth.isLt

/-- Level 1 starts at 0: it has no running total, no carry and no pad (rules R113, R115, R116). -/
theorem offsetAt_one (w : Walk) (g : Geom) : w.offsetAt g 1 = 0 := by
  simp [Walk.offsetAt, Walk.carryAt]

section
variable (d : Descriptor) (m : TileMode) (sw : Word)

/-- The carry of a level above 1: the low half of the surface's SWIZZLE at the degrading level, 0 elsewhere (rule R115).
A level below 32 stamps bits 23:16 alone. -/
theorem mipWalk_carryAt {k : Nat} (hk : 1 ≤ k) (hk' : k + 1 < 32) :
    (degradesAt d m (k + 1) →
      (d.mipWalk specParams m sw (k + 1)).carryAt (d.levelGeom specParams m (k + 1)) (k + 1) = sw.toNat % 65536) ∧
    (¬ degradesAt d m (k + 1) →
      (d.mipWalk specParams m sw (k + 1)).carryAt (d.levelGeom specParams m (k + 1)) (k + 1) = 0) := by
  unfold Walk.carryAt
  have hiff := mipWalk_degradesAt_iff d m sw k
  constructor
  · intro hdeg
    have hclear : clearDegrade (stampDegrade (d.mipWalk specParams m sw (k + 1)).swizzle (k + 1)) = clearDegrade sw := by
      rw [clearDegrade_stampDegrade _ hk', clearDegrade_mipWalk _ _ _ _ (by omega) (by omega)]
    rw [if_pos ⟨hiff.2 hdeg, by omega⟩, show (0xFFFF : Nat) = 2 ^ 16 - 1 from rfl, Nat.and_two_pow_sub_one_eq_mod]
    exact lowHalf_of_clearDegrade_eq hclear
  · exact fun hstay => if_neg fun ⟨hdeg, _⟩ => hstay (hiff.1 hdeg)

end

section
variable (d : Descriptor)

/-- The walk that CALC takes over the levels of a surface (rules R100, R113). -/
def Descriptor.chain (n : Nat) : Walk :=
  d.mipWalk specParams (d.levelZero specParams).mode (d.levelZero specParams).swizzle n

theorem chain_offset_one : (d.chain 2).prevOff = 0 := offsetAt_one _ _

/-- The offset of level `k + 2` after that of level `k + 1` (rule R116). -/
theorem chain_offset_succ (k : Nat) :
    (d.chain (k + 3)).prevOff =
      (d.chain (k + 2)).prevOff + (d.chain (k + 2)).prevSize
        + (d.chain (k + 2)).carryAt (d.levelGeom specParams (d.levelZero specParams).mode (k + 2)) (k + 2)
        + ((d.levelGeom specParams (d.levelZero specParams).mode (k + 2)).align
            - ((d.chain (k + 2)).prevOff + (d.chain (k + 2)).prevSize)
              % (d.levelGeom specParams (d.levelZero specParams).mode (k + 2)).align)
          % (d.levelGeom specParams (d.levelZero specParams).mode (k + 2)).align := by
  unfold Descriptor.chain
  rw [mipWalk_prevOff, Walk.offsetAt, if_neg (by omega)]

/-- A level ends where the next one starts, or before it (the inference of R116). -/
theorem chain_end_le_succ (k : Nat) :
    (d.chain (k + 2)).prevOff + (d.chain (k + 2)).prevSize ≤ (d.chain (k + 3)).prevOff := by
  rw [chain_offset_succ]
  omega

/-- A level ends where a later one starts, or before it (the inference of R116). -/
theorem chain_end_le {i j : Nat} (h : i < j) :
    (d.chain (i + 2)).prevOff + (d.chain (i + 2)).prevSize ≤ (d.chain (j + 2)).prevOff := by
  induction j, h using Nat.le_induction with
  | base => exact chain_end_le_succ d i
  | succ j _ ih => exact (ih.trans (Nat.le_add_right _ _)).trans (chain_end_le_succ d j)

/-- No level ends after a later one (the inference of R116). -/
theorem chain_end_mono {i j : Nat} (h : i ≤ j) :
    (d.chain (i + 2)).prevOff + (d.chain (i + 2)).prevSize ≤ (d.chain (j + 2)).prevOff + (d.chain (j + 2)).prevSize := by
  rcases h.eq_or_lt with rfl | hlt
  · exact le_rfl
  · exact (chain_end_le d hlt).trans (Nat.le_add_right _ _)

/-! ## The offsets and sizes that CALC lists -/

/-- The offsets that CALC lists are those of the chain (rules R100, R113). -/
theorem layoutResult_offsets :
    (d.layoutResult specParams).offsets = (List.range (d.mipCount - 1)).map fun i => (d.chain (i + 2)).prevOff := by
  obtain ⟨k, hk⟩ : ∃ k, d.mipCount = k + 1 := ⟨d.mipCount - 1, by have := one_le_mipCount d; omega⟩
  simp only [Descriptor.layoutResult, hk]
  exact mipWalk_offsets _ _ _ _ k

/-- The sizes that CALC lists are those of the chain, and those of the levels' geometry (rules R100, R113). -/
theorem layoutResult_sizes :
    (d.layoutResult specParams).sizes =
      (List.range (d.mipCount - 1)).map fun i => (d.chain (i + 2)).prevSize := by
  obtain ⟨k, hk⟩ : ∃ k, d.mipCount = k + 1 := ⟨d.mipCount - 1, by have := one_le_mipCount d; omega⟩
  simp only [Descriptor.layoutResult, hk, mipWalk_sizes, Descriptor.chain, mipWalk_prevSize]
  rfl

theorem layoutResult_levels : (d.layoutResult specParams).levels = d.mipCount := rfl

theorem layoutResult_mode : (d.layoutResult specParams).mode = (d.levelZero specParams).mode := rfl

/-- The size of a level in the chain is that of its geometry (rules R109, R113). -/
theorem chain_prevSize (i : Nat) :
    (d.chain (i + 2)).prevSize = (d.levelGeom specParams (d.layoutResult specParams).mode (i + 1)).size :=
  mipWalk_prevSize _ _ _ _ i

section
variable {d} {i : Nat} (hi : i + 1 < d.mipCount)
include hi

theorem layoutResult_offsets_getD : (d.layoutResult specParams).offsets.getD i 0 = (d.chain (i + 2)).prevOff := by
  simp [layoutResult_offsets, List.getD_eq_getElem?_getD, show i < d.mipCount - 1 by omega]

theorem layoutResult_sizes_getD : (d.layoutResult specParams).sizes.getD i 0 = (d.chain (i + 2)).prevSize := by
  simp [layoutResult_sizes, List.getD_eq_getElem?_getD, show i < d.mipCount - 1 by omega]

end

/-- MIPMAP_SIZE is the end of the last level (rule R117). -/
theorem layoutResult_mipmapSize {k : Nat} (hk : d.mipCount = k + 2) :
    (d.layoutResult specParams).mipmapSize = (d.chain (k + 2)).prevOff + (d.chain (k + 2)).prevSize := by
  simp [Descriptor.layoutResult, Descriptor.chain, hk]

end

/-- Settles O38: the walk, level by level. -/
theorem mipChainOffsets : Obligations.MipChainOffsets := by
  unfold Obligations.MipChainOffsets
  rintro d r rfl
  rw [layoutResult_levels]
  refine ⟨layoutResult_offsets_length d, by simp [layoutResult_sizes], ?_, ?_, ?_, ?_⟩
  · intro L h1 hL
    obtain ⟨i, rfl⟩ : ∃ i, L = i + 1 := ⟨L - 1, by omega⟩
    rw [Nat.add_sub_cancel, layoutResult_sizes_getD hL, chain_prevSize]
  · intro hmany
    rw [layoutResult_offsets_getD hmany, chain_offset_one]
  · intro L h2 hL run align carry hrun halign hdeg hstay
    obtain ⟨k, rfl⟩ : ∃ k, L = k + 2 := ⟨L - 2, by omega⟩
    have hmax := mipCount_le_width d
    obtain ⟨hlow, hnone⟩ := mipWalk_carryAt d (d.levelZero specParams).mode (d.levelZero specParams).swizzle
      (k := k + 1) (by omega) (by omega)
    have hcarry : (d.chain (k + 2)).carryAt (d.levelGeom specParams (d.levelZero specParams).mode (k + 2)) (k + 2)
        = carry := by
      by_cases h : degradesAt d (d.levelZero specParams).mode (k + 2)
      · exact (hlow h).trans ((lowHalf_of_clearDegrade_eq (clearDegrade_levelZero d)).trans (hdeg h).symm)
      · exact (hnone h).trans (hstay h).symm
    rw [Nat.add_sub_cancel, layoutResult_offsets_getD (by omega), layoutResult_sizes_getD (by omega)] at hrun
    rw [show k + 2 - 1 = k + 1 from rfl, layoutResult_offsets_getD hL, chain_offset_succ, hcarry, ← hrun,
      ← layoutResult_mode, ← halign]
  · split
    · next hmany =>
      obtain ⟨k, hk⟩ : ∃ k, d.mipCount = k + 2 := ⟨d.mipCount - 2, by omega⟩
      rw [layoutResult_mipmapSize d hk, layoutResult_offsets_getD (by omega), layoutResult_sizes_getD (by omega), hk]
      rfl
    · next hone => exact if_neg hone

/-- Settles O39: each level of the chain ends before the next one starts. -/
theorem mipLevelsAreDisjoint : Obligations.MipLevelsAreDisjoint := by
  unfold Obligations.MipLevelsAreDisjoint
  rintro d r rfl
  rw [layoutResult_offsets_length, layoutResult_levels]
  refine ⟨fun i j hij hj => ?_, fun j hj => ?_⟩
  · rw [layoutResult_offsets_getD (by omega), layoutResult_sizes_getD (by omega), layoutResult_offsets_getD (by omega)]
    exact chain_end_le d hij
  · obtain ⟨k, hk⟩ : ∃ k, d.mipCount = k + 2 := ⟨d.mipCount - 2, by omega⟩
    rw [layoutResult_offsets_getD (by omega), layoutResult_sizes_getD (by omega), layoutResult_mipmapSize d hk]
    exact chain_end_mono d (by omega)

/-! ## GEOM on the levels of a valid layout -/

/-- The registers of a valid layout are those of the layout that its descriptor computes, and level XL_LEVEL is one of
that layout (rules R41, R100, R122). -/
theorem layoutCoherent_layout {s : State} (hs : s.LayoutCoherent) (hv : s.layoutValid = true) :
    s.layout = (s.desc.layoutResult specParams).regs ∧
      s.levelHere = s.desc.levelGeom specParams (s.desc.layoutResult specParams).mode s.xl.level.toNat := by
  obtain ⟨r, hr, -, hlayout⟩ := hs hv
  obtain ⟨-, -, rfl⟩ := (calculate_ok_iff _ _ _).1 hr
  obtain ⟨-, -, hmode, -⟩ := layoutCoherent_desc hs hv
  refine ⟨hlayout.symm, ?_⟩
  unfold State.levelHere
  rw [hmode]
  rfl

/-- Settles O43: level 0 of the mode that CALC keeps has the geometry that CALC keeps. -/
theorem geomZeroReproducesTheLayout : Obligations.GeomZeroReproducesTheLayout := by
  unfold Obligations.GeomZeroReproducesTheLayout
  intro s hs hr h0
  have ⟨hv, _⟩ := hr
  obtain ⟨hlayout, hhere⟩ := layoutCoherent_layout hs hv
  have hzero : s.levelHere = (s.desc.layoutResult specParams).zero := by
    rw [hhere, h0]
    exact (levelZero_geom s.desc).symm
  have hmode : s.levelHere.mode.code = s.desc.tileMode := by
    unfold State.levelHere
    rw [h0]
    exact TileMode.code_ofCode s.desc.tileMode
  refine ⟨_, execGeom_of_ok (selectLevel_of_ready hr), hmode, ?_, ?_, ?_⟩ <;>
    · rw [hlayout, hzero]
      rfl

/-- Settles O44: the level is one of the chain, whose end is MIPMAP_SIZE. -/
theorem geomLevelFitsTheMipmap : Obligations.GeomLevelFitsTheMipmap := by
  unfold Obligations.GeomLevelFitsTheMipmap
  intro s i hs hr hi
  have ⟨hv, hl⟩ := hr
  obtain ⟨t, ht, -, -, -, -, -, hsize, -⟩ := geomWritesTheLevel s hs hr
  obtain ⟨hlayout, hhere⟩ := layoutCoherent_layout hs hv
  obtain ⟨-, hfits, -, hlevels⟩ := layoutCoherent_desc hs hv
  obtain ⟨-, -, -, hmip, hoff, -⟩ := (fits_iff_bounded _).1 hfits
  have hlt : i.val + 1 < s.desc.mipCount := by omega
  obtain ⟨-, hends⟩ := mipLevelsAreDisjoint s.desc _ rfl
  have hend := hends i.val (by rw [layoutResult_offsets_length, layoutResult_levels]; omega)
  refine ⟨t, ht, ?_⟩
  rw [hsize, hhere, hi, ← chain_prevSize, ← layoutResult_sizes_getD hlt, hlayout,
    mipOffset_toNat (layoutResult_offsets_length _) hoff, layoutResult_levels, if_pos hlt]
  exact hend.trans_eq (toNat_ofNat_of_lt hmip).symm

end Sys2Proof.Machine

/-! SUPPORT. The proofs of the family of 40_layout.md: the offsets of the elements of a level's padded plane, no two of
them equal, and with one sample every element slot reached. -/

namespace Sys2Proof.Machine

open Sys2Proof.Rules

/-! ## Positions in row-major order -/

/-- The position of an element of a plane, row by row, determines its column and its row. -/
theorem rowMajor_inj {x y x' y' w : Nat} (hx : x < w) (hx' : x' < w) (h : x + y * w = x' + y' * w) :
    x = x' ∧ y = y' := by
  have hcol : x = x' := by
    have hmod := congrArg (· % w) h
    simpa [Nat.add_mul_mod_self_right, Nat.mod_eq_of_lt hx, Nat.mod_eq_of_lt hx'] using hmod
  subst hcol
  exact ⟨rfl, Nat.eq_of_mul_eq_mul_right (Nat.zero_lt_of_lt hx) (Nat.add_left_cancel h)⟩

/-! ## The pixel index -/

/-- The pixel index reads the low three bits of x and y only (rule R141). -/
theorem pixelIndex_mod (x y bytes : Nat) : pixelIndex x y bytes = pixelIndex (x % 8) (y % 8) bytes := by
  have hlow (v m : Nat) (hm : 7 &&& m = m) : v % 8 &&& m = v &&& m := by
    rw [show v % 8 = v &&& 7 from (Nat.and_two_pow_sub_one_eq_mod v 3).symm, Nat.and_assoc, hm]
  unfold pixelIndex
  rw [hlow x 7 (by decide), hlow y 6 (by decide), hlow y 1 (by decide)]

/-- The 64 elements of a micro-tile, row by row, have 64 different pixel indices (the inference of R142). -/
theorem pixelIndex_nodup : ∀ bytes ∈ [2, 4, 8, 16],
    ((List.range 64).map fun k => pixelIndex (k % 8) (k / 8) bytes).Nodup := by decide

/-- The pixel index determines the place of an element in its micro-tile (the inference of R142). -/
theorem pixelIndex_inj {bytes : Nat} (hb : bytes ∈ [2, 4, 8, 16]) {x y x' y' : Nat}
    (h : pixelIndex x y bytes = pixelIndex x' y' bytes) : x % 8 = x' % 8 ∧ y % 8 = y' % 8 := by
  have hplace (u v : Nat) : pixelIndex ((u % 8 + v % 8 * 8) % 8) ((u % 8 + v % 8 * 8) / 8) bytes
      = pixelIndex u v bytes := by
    rw [pixelIndex_mod u v, show (u % 8 + v % 8 * 8) % 8 = u % 8 by omega,
      show (u % 8 + v % 8 * 8) / 8 = v % 8 by omega]
  have hsame : x % 8 + y % 8 * 8 = x' % 8 + y' % 8 * 8 :=
    List.inj_on_of_nodup_map (pixelIndex_nodup bytes hb) (List.mem_range.2 (by omega)) (List.mem_range.2 (by omega))
      (by rw [hplace, hplace, h])
  omega

/-! ## The bank/pipe selector -/

/-- The bits of the bank/pipe selector, before the seed (rule R153). -/
theorem testBit_bankPipe (x y : Nat) :
    (bankPipe x y).testBit 0 = (y.testBit 3 ^^ x.testBit 3) ∧
      (bankPipe x y).testBit 1 = (y.testBit 5 ^^ x.testBit 3) ∧
      (bankPipe x y).testBit 2 = (y.testBit 4 ^^ x.testBit 4) := by
  have h1 : ∀ i < 3, Nat.testBit 1 i = decide (i = 0) := by decide
  have h2 : ∀ i < 3, Nat.testBit 2 i = decide (i = 1) := by decide
  have h4 : ∀ i < 3, Nat.testBit 4 i = decide (i = 2) := by decide
  simp only [bankPipe, Nat.testBit_or, Nat.testBit_and, Nat.testBit_xor, Nat.testBit_shiftRight]
  refine ⟨?_, ?_, ?_⟩
  · simp [h1 0, h2 0, h4 0]
  · simp [h1 1, h2 1, h4 1]
  · simp [h1 2, h2 2, h4 2]

/-- Two numbers with the same quotient by 16 and the same bit 3 have the same quotient by 8. -/
theorem div_eight_eq {v v' : Nat} (hdiv : v / 16 = v' / 16) (hbit : v.testBit 3 = v'.testBit 3) : v / 8 = v' / 8 := by
  simp only [Nat.testBit_eq_decide_div_mod_eq, decide_eq_decide] at hbit
  omega

/-- Two numbers with the same quotient by 32 and the same bit 4 have the same quotient by 16. -/
theorem div_sixteen_eq {v v' : Nat} (hdiv : v / 32 = v' / 32) (hbit : v.testBit 4 = v'.testBit 4) :
    v / 16 = v' / 16 := by
  simp only [Nat.testBit_eq_decide_div_mod_eq, decide_eq_decide] at hbit
  omega

/-- Inside a 32 × 16 block, the bank/pipe selector determines the micro-tile: bits 5 and 4 of y are the block's, so the
selector's bits 1 and 2 give bits 3 and 4 of x, and then its bit 0 gives bit 3 of y (rule R153). -/
theorem bankPipe_inj {x y x' y' : Nat} (hx : x / 32 = x' / 32) (hy : y / 16 = y' / 16)
    (h : bankPipe x y = bankPipe x' y') : x / 8 = x' / 8 ∧ y / 8 = y' / 8 := by
  obtain ⟨h0, h1, h2⟩ := testBit_bankPipe x y
  obtain ⟨h0', h1', h2'⟩ := testBit_bankPipe x' y'
  rw [h] at h0 h1 h2
  have hblock (i : Nat) : y.testBit (i + 4) = y'.testBit (i + 4) := by
    rw [Nat.testBit_add, Nat.testBit_add]
    exact congrArg (Nat.testBit · i) hy
  have hx3 : x.testBit 3 = x'.testBit 3 := by
    have := h1.symm.trans h1'
    rwa [hblock 1, Bool.xor_right_inj] at this
  have hx4 : x.testBit 4 = x'.testBit 4 := by
    have := h2.symm.trans h2'
    rwa [hblock 0, Bool.xor_right_inj] at this
  have hy3 : y.testBit 3 = y'.testBit 3 := by
    have := h0.symm.trans h0'
    rwa [hx3, Bool.xor_left_inj] at this
  exact ⟨div_eight_eq (div_sixteen_eq hx hx4) hx3, div_eight_eq hy hy3⟩

/-! ## No two elements share an offset -/

/-- The element widths in bytes of the supported formats (rule R39). -/
theorem bytes_mem {d : Descriptor} (h : d.bpp ≠ 0) : d.bytes ∈ [2, 4, 8, 16] := by
  have hb := bpp_mem h
  have h8 := eight_mul_bytes d
  simp only [List.mem_cons, List.not_mem_nil, or_false] at hb ⊢
  omega

theorem width_pos {bytes : Nat} (hb : bytes ∈ [2, 4, 8, 16]) : 0 < bytes := by
  simp only [List.mem_cons, List.not_mem_nil, or_false] at hb
  omega

/-- The position of a pixel, tile by tile in a plane of `p` × `q` tiles of 64 pixels and plane by plane, determines the
pixel, the tile and the plane. -/
theorem tilePosition_inj {k u v s k' u' v' s' p q : Nat} (hk : k < 64) (hk' : k' < 64) (hu : u < p) (hu' : u' < p)
    (hv : v < q) (hv' : v' < q) (h : k + (u + v * p + s * (p * q)) * 64 = k' + (u' + v' * p + s' * (p * q)) * 64) :
    k = k' ∧ s = s' ∧ u = u' ∧ v = v' := by
  obtain ⟨hpixel, hblock⟩ := rowMajor_inj hk hk' h
  obtain ⟨htile, hslice⟩ := rowMajor_inj (rowMajor_lt hu hv) (rowMajor_lt hu' hv') hblock
  exact ⟨hpixel, hslice, rowMajor_inj hu hu' htile⟩

/-- The micro offset counts whole tiles in a plane that is made of them (rules R108, R152). -/
theorem microOffset_eq_tiles {g : Geom} (hp : 8 ∣ g.pitch) (hh : 8 ∣ g.height) (bytes s x y : Nat) :
    microOffset g bytes s x y =
      (pixelIndex x y bytes + (x / 8 + y / 8 * (g.pitch / 8) + s * (g.pitch / 8 * (g.height / 8))) * 64) * bytes := by
  have hplane : g.pitch * g.height = g.pitch / 8 * (g.height / 8) * 64 := by
    conv_lhs => rw [← Nat.mul_div_cancel' hp, ← Nat.mul_div_cancel' hh]
    ring
  rw [microOffset_eq, hplane]
  ring

section
variable {g : Geom} {bytes s x y s' x' y' : Nat} (hx : x < g.pitch) (hy : y < g.height) (hx' : x' < g.pitch)
  (hy' : y' < g.height)
include hx hy hx' hy'

theorem linearOffset_inj (hb : 0 < bytes)
    (h : linearOffset g (8 * bytes) s x y = linearOffset g (8 * bytes) s' x' y') : s = s' ∧ x = x' ∧ y = y' := by
  rw [linearOffset_eq, linearOffset_eq] at h
  obtain ⟨hpos, hs⟩ := rowMajor_inj (rowMajor_lt hx hy) (rowMajor_lt hx' hy') (Nat.eq_of_mul_eq_mul_right hb h)
  exact ⟨hs, rowMajor_inj hx hx' hpos⟩

/-- The micro offset determines the slice, the tile and the pixel of the tile (rules R141, R152). -/
theorem microOffset_inj (hp : 8 ∣ g.pitch) (hh : 8 ∣ g.height) (hb : bytes ∈ [2, 4, 8, 16])
    (h : microOffset g bytes s x y = microOffset g bytes s' x' y') : s = s' ∧ x = x' ∧ y = y' := by
  rw [microOffset_eq_tiles hp hh, microOffset_eq_tiles hp hh] at h
  obtain ⟨hpixel, hs, hcol, hrow⟩ := tilePosition_inj (pixelIndex_lt _ _ _) (pixelIndex_lt _ _ _)
    (Nat.div_lt_div_of_lt_of_dvd hp hx) (Nat.div_lt_div_of_lt_of_dvd hp hx') (Nat.div_lt_div_of_lt_of_dvd hh hy)
    (Nat.div_lt_div_of_lt_of_dvd hh hy') (Nat.eq_of_mul_eq_mul_right (width_pos hb) h)
  obtain ⟨hx8, hy8⟩ := pixelIndex_inj hb hpixel
  exact ⟨hs, by omega, by omega⟩

/-- The macro offset determines `combined` and the bank/pipe selector: the first gives the slice, the block and the pixel
of a tile, the second the tile of the block (rules R141, R153). -/
theorem macroOffset_inj (hp : 32 ∣ g.pitch) (hh : 16 ∣ g.height) (hb : bytes ∈ [2, 4, 8, 16]) {seed : Nat}
    (hseed : seed < 8) (h : macroOffset g bytes seed s x y = macroOffset g bytes seed s' x' y') :
    s = s' ∧ x = x' ∧ y = y' := by
  rw [macroOffset_eq g bytes s x y hseed, macroOffset_eq g bytes s' x' y' hseed] at h
  have hsel : bankPipe x y ^^^ seed < 2 ^ 3 := Nat.xor_lt_two_pow (bankPipe_lt x y) hseed
  have hsel' : bankPipe x' y' ^^^ seed < 2 ^ 3 := Nat.xor_lt_two_pow (bankPipe_lt x' y') hseed
  have hcombined : macroCombined g bytes s x y = macroCombined g bytes s' x' y' := by omega
  have hselector : bankPipe x y ^^^ seed = bankPipe x' y' ^^^ seed := by omega
  rw [macroCombined_eq hp hh, macroCombined_eq hp hh] at hcombined
  obtain ⟨hpixel, hs, hcol, hrow⟩ := tilePosition_inj (pixelIndex_lt _ _ _) (pixelIndex_lt _ _ _)
    (Nat.div_lt_div_of_lt_of_dvd hp hx) (Nat.div_lt_div_of_lt_of_dvd hp hx') (Nat.div_lt_div_of_lt_of_dvd hh hy)
    (Nat.div_lt_div_of_lt_of_dvd hh hy') (Nat.eq_of_mul_eq_mul_right (width_pos hb) hcombined)
  obtain ⟨hx8, hy8⟩ := pixelIndex_inj hb hpixel
  obtain ⟨htx, hty⟩ := bankPipe_inj hcol hrow (Nat.xor_left_injective hselector)
  exact ⟨hs, by omega, by omega⟩

end

section
variable {d : Descriptor} (hb : d.bpp ≠ 0) {m : TileMode} {L s x y off : Nat}
include hb

/-- Two elements of a level's padded plane never share an offset (the inference of R155). -/
theorem elementOffset_inj {s' x' y' : Nat} (hplane : Geom.inPlane (d.levelGeom specParams m L) s x y = true)
    (hplane' : Geom.inPlane (d.levelGeom specParams m L) s' x' y' = true)
    (hoff : d.elementOffset (d.levelGeom specParams m L) s x y = some off)
    (hoff' : d.elementOffset (d.levelGeom specParams m L) s' x' y' = some off) : s = s' ∧ x = x' ∧ y = y' := by
  obtain ⟨-, hx, hy⟩ := (inPlane_iff _ _ _ _).1 hplane
  obtain ⟨-, hx', hy'⟩ := (inPlane_iff _ _ _ _).1 hplane'
  have hbytes := bytes_mem hb
  have hsame := hoff.trans hoff'.symm
  unfold Descriptor.elementOffset at hoff hsame
  split at hoff
  case h_1 hm =>
    simp only [hm, ← eight_mul_bytes, Option.some.injEq] at hsame
    exact linearOffset_inj hx hy hx' hy' (bytes_pos hb) hsame
  case h_2 hm =>
    simp only [hm, Option.some.injEq] at hsame
    obtain ⟨hp, hh⟩ := levelGeom_micro_dvd hb (.inl hm)
    exact microOffset_inj hx hy hx' hy' hp hh hbytes hsame
  case h_3 hm =>
    simp only [hm, Option.some.injEq] at hsame
    obtain ⟨hp, hh⟩ := levelGeom_micro_dvd hb (.inr hm)
    exact microOffset_inj hx hy hx' hy' hp hh hbytes hsame
  case h_4 hm =>
    simp only [hm, Option.some.injEq] at hsame
    obtain ⟨hp, hh⟩ := levelGeom_block_dvd hb (.inl hm)
    exact macroOffset_inj hx hy hx' hy' hp hh hbytes (seedBits_lt d) hsame
  all_goals cases hoff

/-! ## Every slot is reached -/

/-- An offset is a whole number of elements (the inference of R155): a group of 256 bytes holds whole elements, so the
bank/pipe selector and the split of `combined` move whole elements (rule R153). -/
theorem bytes_dvd_elementOffset (hoff : d.elementOffset (d.levelGeom specParams m L) s x y = some off) :
    d.bytes ∣ off := by
  unfold Descriptor.elementOffset at hoff
  split at hoff
  case h_1 =>
    cases hoff
    rw [← eight_mul_bytes, linearOffset_eq]
    exact Nat.dvd_mul_left _ _
  case h_2 =>
    cases hoff
    rw [microOffset_eq]
    exact Nat.dvd_mul_left _ _
  case h_3 =>
    cases hoff
    rw [microOffset_eq]
    exact Nat.dvd_mul_left _ _
  case h_4 hm =>
    cases hoff
    obtain ⟨hp, hh⟩ := levelGeom_block_dvd hb (.inl hm)
    have hgroup : ∀ bytes ∈ [2, 4, 8, 16], bytes ∣ 256 := by decide
    have h256 := hgroup _ (bytes_mem hb)
    have hcombined : d.bytes ∣ macroCombined (d.levelGeom specParams m L) d.bytes s x y := by
      rw [macroCombined_eq hp hh]
      exact Nat.dvd_mul_left _ _
    rw [macroOffset_eq _ _ _ _ _ (seedBits_lt d)]
    exact Nat.dvd_add (Nat.dvd_add (h256.mul_right _) ((Nat.dvd_mod_iff h256).2 hcombined))
      ((h256.trans (by decide)).mul_right _)
  all_goals cases hoff

end

/-- The element slot of an element: its offset as a number of elements (rule R155). -/
def Descriptor.slot (d : Descriptor) (g : Geom) : Nat × Nat × Nat → Nat
  | (s, x, y) => (d.elementOffset g s x y).getD 0 / d.bytes

/-- The elements of a padded plane, as slice, x and y (rule R157). -/
def planeElements (g : Geom) : Finset (Nat × Nat × Nat) :=
  Finset.range g.slices ×ˢ Finset.range g.pitch ×ˢ Finset.range g.height

theorem mem_planeElements_iff (g : Geom) (s x y : Nat) : (s, x, y) ∈ planeElements g ↔ Geom.inPlane g s x y = true := by
  simp [planeElements, inPlane_iff]

theorem card_planeElements (g : Geom) : (planeElements g).card = g.pitch * g.height * g.slices := by
  simp only [planeElements, Finset.card_product, Finset.card_range]
  ring

section
variable {d : Descriptor} (hb : d.bpp ≠ 0) {m : TileMode} {L : Nat}
  (hm : (d.levelGeom specParams m L).mode.hasFormula = true)
include hb hm

/-- An offset is its slot times the element size. -/
theorem elementOffset_eq_slot (s x y : Nat) :
    d.elementOffset (d.levelGeom specParams m L) s x y
      = some (d.slot (d.levelGeom specParams m L) (s, x, y) * d.bytes) := by
  rw [← elementOffset_isSome d _ s x y, Option.isSome_iff_exists] at hm
  obtain ⟨off, hoff⟩ := hm
  simp only [Descriptor.slot, hoff, Option.getD_some, Nat.div_mul_cancel (bytes_dvd_elementOffset hb hoff)]

theorem slot_injOn : Set.InjOn (d.slot (d.levelGeom specParams m L)) (planeElements (d.levelGeom specParams m L)) := by
  rintro ⟨s, x, y⟩ hp ⟨s', x', y'⟩ hp' h
  have hoff := elementOffset_eq_slot hb hm s x y
  rw [h] at hoff
  obtain ⟨rfl, rfl, rfl⟩ := elementOffset_inj hb ((mem_planeElements_iff _ _ _ _).1 hp)
    ((mem_planeElements_iff _ _ _ _).1 hp') hoff (elementOffset_eq_slot hb hm s' x' y')
  rfl

variable (hone : d.samples = 1)
include hone

/-- With one sample, the slots lie below the number of elements (the inference of R155). -/
theorem slot_lt {s x y : Nat} (hp : Geom.inPlane (d.levelGeom specParams m L) s x y = true) :
    d.slot (d.levelGeom specParams m L) (s, x, y) <
      (d.levelGeom specParams m L).pitch * (d.levelGeom specParams m L).height
        * (d.levelGeom specParams m L).slices := by
  have hlt := elementOffset_lt_size hb hp (elementOffset_eq_slot hb hm s x y)
  rw [levelSize_eq, hone, Nat.mul_one] at hlt
  exact Nat.lt_of_mul_lt_mul_right hlt

/-- With one sample, every slot of the plane is an element's: there are as many elements as slots, and no two elements
share one (the inference of R155). -/
theorem exists_slot_eq {k : Nat}
    (hk : k < (d.levelGeom specParams m L).pitch * (d.levelGeom specParams m L).height
      * (d.levelGeom specParams m L).slices) :
    ∃ s x y, Geom.inPlane (d.levelGeom specParams m L) s x y = true ∧
      d.slot (d.levelGeom specParams m L) (s, x, y) = k := by
  have hmaps : Set.MapsTo (d.slot (d.levelGeom specParams m L)) (planeElements (d.levelGeom specParams m L))
      (Finset.range (planeElements (d.levelGeom specParams m L)).card) := by
    rintro ⟨s, x, y⟩ hp
    rw [Finset.coe_range, card_planeElements]
    exact slot_lt hb hm hone ((mem_planeElements_iff _ _ _ _).1 hp)
  have hsurj := Finset.surjOn_of_injOn_of_card_le _ hmaps (slot_injOn hb hm) (by rw [Finset.card_range])
  obtain ⟨⟨s, x, y⟩, hp, hslot⟩ := hsurj (by rw [Finset.coe_range, card_planeElements]; exact hk)
  exact ⟨s, x, y, (mem_planeElements_iff _ _ _ _).1 hp, hslot⟩

end

/-- Settles O51: each address formula determines the slice, x and y. -/
theorem xlateIsInjective : Obligations.XlateIsInjective := by
  unfold Obligations.XlateIsInjective
  rintro d m L g s x y s' x' y' off hsup rfl - hs hx hy hs' hx' hy' hoff hoff'
  exact elementOffset_inj ((supported_iff_bpp_ne_zero d).1 hsup) ((inPlane_iff _ _ _ _).2 ⟨hs, hx, hy⟩)
    ((inPlane_iff _ _ _ _).2 ⟨hs', hx', hy'⟩) hoff hoff'

/-- Settles O52: an element has its slot below the number of elements, and every such slot is an element's. -/
theorem xlateCoversThePlane : Obligations.XlateCoversThePlane := by
  unfold Obligations.XlateCoversThePlane
  rintro d m L g off hsup haa rfl hm
  have hb := (supported_iff_bpp_ne_zero d).1 hsup
  have hone : d.samples = 1 := by rw [samples_eq, if_pos haa]
  constructor
  · rintro ⟨s, x, y, hs, hx, hy, hoff⟩
    refine ⟨_, slot_lt hb hm hone ((inPlane_iff _ _ _ _).2 ⟨hs, hx, hy⟩), ?_⟩
    exact Option.some.inj (hoff.symm.trans (elementOffset_eq_slot hb hm s x y))
  · rintro ⟨k, hk, rfl⟩
    obtain ⟨s, x, y, hp, rfl⟩ := exists_slot_eq hb hm hone hk
    obtain ⟨hs, hx, hy⟩ := (inPlane_iff _ _ _ _).1 hp
    exact ⟨s, x, y, hs, hx, hy, elementOffset_eq_slot hb hm s x y⟩

end Sys2Proof.Machine

/-! SUPPORT. The proofs of the family of 41_translate.md: the outcomes of XLATE on a level that exists, the pixel index
and the bank/pipe value by their bits, and what SWIZZLE changes. -/

namespace Sys2Proof.Machine

open Sys2Proof.Rules

/-! ## The outcomes of XLATE on a level that exists -/

section
variable {s : State} (hr : s.LevelReady)
include hr

/-- A level without an address formula stops XLATE before the coordinates are looked at (rules R156, R225). -/
theorem translate_of_not_hasFormula (hm : s.levelHere.mode.hasFormula = false) :
    s.translate = .error .tileModeNotSupported := by
  have hnone : s.desc.elementOffset s.levelHere s.xl.slice.toNat s.xl.x.toNat s.xl.y.toNat = none := by
    rw [← Option.not_isSome_iff_eq_none, elementOffset_isSome, hm]
    exact Bool.false_ne_true
  unfold State.translate
  simp only [selectLevel_of_ready hr, hnone]

/-- An element outside the padded plane stops XLATE where the level has an address formula (rules R157, R225). -/
theorem translate_of_not_inPlane (hm : s.levelHere.mode.hasFormula = true)
    (hp : ¬ Geom.inPlane s.levelHere s.xl.slice.toNat s.xl.x.toNat s.xl.y.toNat = true) :
    s.translate = .error .coordOutOfRange := by
  have hsome : (s.desc.elementOffset s.levelHere s.xl.slice.toNat s.xl.x.toNat s.xl.y.toNat).isSome = true := by
    rw [elementOffset_isSome, hm]
  obtain ⟨off, hoff⟩ := Option.isSome_iff_exists.1 hsome
  unfold State.translate
  simp only [selectLevel_of_ready hr, hoff, if_neg hp]

/-- XLATE of an element of the padded plane of a level of a valid layout writes the level's geometry and the element's
offset, both whole, and nothing else but ERR (rules R35, R36, R150). -/
theorem execXlate_of_inPlane (hs : s.LayoutCoherent) (hslice : s.xl.slice.toNat < s.levelHere.slices)
    (hx : s.xl.x.toNat < s.levelHere.pitch) (hy : s.xl.y.toNat < s.levelHere.height) {off : Nat}
    (hoff : s.desc.elementOffset s.levelHere s.xl.slice.toNat s.xl.x.toNat s.xl.y.toNat = some off) :
    ∃ t, exec .xlate s = .next t ∧ t = { s with err := 0, lv := t.lv, xlOffset := t.xlOffset } ∧
      levelWritten t s.levelHere ∧ t.xlOffset.toNat = off := by
  have ⟨hv, hl⟩ := hr
  have hplane := (inPlane_iff _ _ _ _).2 ⟨hslice, hx, hy⟩
  have hok : s.translate = .ok (s.levelHere, off) :=
    (translate_ok_iff _ _ _).2 ⟨selectLevel_of_ready hr, hoff, hplane⟩
  have hlt : off < 2 ^ 32 :=
    (elementOffset_lt_size (bpp_ne_zero_of_valid hs hv) hplane hoff).trans (levelSize_lt_of_valid hs hv hl)
  exact ⟨_, execXlate_of_ok hok, rfl, levelWritten_of_ready hs hr rfl, toNat_ofNat_of_lt hlt⟩

end

/-- Settles O48: neither mode has an address formula. -/
theorem xlateWithoutFormulaStops : Obligations.XlateWithoutFormulaStops := by
  unfold Obligations.XlateWithoutFormulaStops
  intro s hr hm
  have hnone : s.levelHere.mode.hasFormula = false := by
    rcases hm with hm | hm <;> rw [hm] <;> rfl
  exact execXlate_of_error (translate_of_not_hasFormula hr hnone)

/-- Settles O49: the four modes have an address formula, so the coordinates decide. -/
theorem xlateOutsideThePlaneStops : Obligations.XlateOutsideThePlaneStops := by
  unfold Obligations.XlateOutsideThePlaneStops
  intro s hr hm hout
  have hformula : ∀ m ∈ [TileMode.thin1D, .thick1D, .thin2D, .linearSpecial], m.hasFormula = true := by decide
  refine execXlate_of_error (translate_of_not_inPlane hr (hformula _ hm) ?_)
  rw [inPlane_iff]
  omega

/-! ## The pixel index by its bits -/

theorem bit_mod_eight (v : Nat) : bit (v % 8) 0 = bit v 0 ∧ bit (v % 8) 1 = bit v 1 ∧ bit (v % 8) 2 = bit v 2 := by
  unfold bit
  omega

/-- The table of rule R142 names the low three bits of x and y only. -/
theorem pixelBits_mod (x y bytes : Nat) : pixelBits x y bytes = pixelBits (x % 8) (y % 8) bytes := by
  obtain ⟨hx0, hx1, hx2⟩ := bit_mod_eight x
  obtain ⟨hy0, hy1, hy2⟩ := bit_mod_eight y
  unfold pixelBits
  rw [hx0, hx1, hx2, hy0, hy1, hy2]

/-- Rule R141's index is the one of R142's table on each of the 64 elements of a micro-tile. -/
theorem pixelIndex_eq_pixelBits_of_lt : ∀ bytes ∈ [1, 2, 4, 8, 16], ∀ x < 8, ∀ y < 8,
    pixelIndex x y bytes = ofBits (pixelBits x y bytes) := by decide

/-- Rule R141's index is the one of R142's table, since both read the low three bits of x and y only. -/
theorem pixelIndex_eq_pixelBits {bytes : Nat} (hb : bytes ∈ [1, 2, 4, 8, 16]) (x y : Nat) :
    pixelIndex x y bytes = ofBits (pixelBits x y bytes) := by
  rw [pixelIndex_mod, pixelBits_mod]
  exact pixelIndex_eq_pixelBits_of_lt bytes hb _ (Nat.mod_lt _ (by decide)) _ (Nat.mod_lt _ (by decide))

/-- The 64 elements of a micro-tile, row by row, have the indices 0..63 in another order (the inference of R142). -/
theorem pixelIndex_perm : ∀ bytes ∈ [1, 2, 4, 8, 16],
    ((List.range 64).map fun k => pixelIndex (k % 8) (k / 8) bytes).Perm (List.range 64) := by decide

/-- Settles O53, from the table's agreement with rule R141 and the permutation. -/
theorem pixelIndexBits : Obligations.PixelIndexBits := by
  unfold Obligations.PixelIndexBits
  refine fun bytes hb => ⟨fun x y => ⟨pixelIndex_eq_pixelBits hb x y, pixelIndex_lt x y bytes⟩, fun k hk => ?_⟩
  obtain ⟨j, hj, hindex⟩ := List.mem_map.1 ((pixelIndex_perm bytes hb).mem_iff.2 (List.mem_range.2 hk))
  have hlt : j < 64 := List.mem_range.1 hj
  exact ⟨j % 8, j / 8, by omega, by omega, hindex⟩

/-! ## The bank/pipe value by its bits -/

/-- The seed bits are bits 10:8 of SWIZZLE (rule R76). -/
theorem seedBits_eq (d : Descriptor) : d.seedBits = d.swizzle.toNat / 256 % 8 := by
  unfold Descriptor.seedBits
  rw [Nat.shiftRight_eq_div_pow]
  exact Nat.and_two_pow_sub_one_eq_mod _ 3

theorem bit_eq_testBit (v i : Nat) : bit v i = (v.testBit i).toNat := (Nat.toNat_testBit v i).symm

theorem bit_xor (v w i : Nat) : bit (v ^^^ w) i = (bit v i + bit w i) % 2 := by
  simp only [bit_eq_testBit, Nat.testBit_xor]
  cases v.testBit i <;> cases w.testBit i <;> rfl

theorem eq_ofBits_of_lt_eight {n : Nat} (h : n < 8) : n = ofBits [bit n 0, bit n 1, bit n 2] := by
  simp only [ofBits, bit, List.foldr]
  omega

theorem bit_seedBits (d : Descriptor) :
    bit d.seedBits 0 = bit d.swizzle.toNat 8 ∧ bit d.seedBits 1 = bit d.swizzle.toNat 9 ∧
      bit d.seedBits 2 = bit d.swizzle.toNat 10 := by
  rw [seedBits_eq]
  unfold bit
  omega

theorem bit_bankPipe (x y : Nat) :
    bit (bankPipe x y) 0 = (bit y 3 + bit x 3) % 2 ∧ bit (bankPipe x y) 1 = (bit y 5 + bit x 3) % 2 ∧
      bit (bankPipe x y) 2 = (bit y 4 + bit x 4) % 2 := by
  have hxor (a b : Bool) : (a ^^ b).toNat = (a.toNat + b.toNat) % 2 := by cases a <;> cases b <;> rfl
  obtain ⟨h0, h1, h2⟩ := testBit_bankPipe x y
  simp only [bit_eq_testBit, h0, h1, h2, hxor, and_self]

/-- The bank/pipe selector with the surface's seed, bit by bit (rule R153). -/
theorem bankPipe_xor_seedBits (d : Descriptor) (x y : Nat) :
    bankPipe x y ^^^ d.seedBits = ofBits (bankPipeBits x y d.swizzle.toNat) := by
  have hlt : bankPipe x y ^^^ d.seedBits < 2 ^ 3 := Nat.xor_lt_two_pow (bankPipe_lt x y) (seedBits_lt d)
  obtain ⟨h0, h1, h2⟩ := bit_bankPipe x y
  obtain ⟨hs0, hs1, hs2⟩ := bit_seedBits d
  rw [eq_ofBits_of_lt_eight hlt, bit_xor, bit_xor, bit_xor, h0, h1, h2, hs0, hs1, hs2]
  simp only [bankPipeBits, Nat.mod_add_mod]

/-! ## The address formulas in plain arithmetic -/

/-- The micro offset with the pixel index of R142's table (rules R142, R152, R154). -/
theorem microOffset_eq_pixelBits {bytes : Nat} (hb : bytes ∈ [1, 2, 4, 8, 16]) (g : Geom) (s x y : Nat) :
    microOffset g bytes s x y =
      s * (g.pitch * g.height * bytes) + (x / 8 + y / 8 * (g.pitch / 8)) * (bytes * 64)
        + ofBits (pixelBits x y bytes) * bytes := by
  unfold microOffset
  rw [pixelIndex_eq_pixelBits hb, Nat.shiftRight_eq_div_pow, Nat.shiftRight_eq_div_pow]
  rfl

/-- The machine's `combined` is that of the rules (rules R142, R153). -/
theorem macroCombined_eq_combined {bytes : Nat} (hb : bytes ∈ [1, 2, 4, 8, 16]) (g : Geom) (s x y : Nat) :
    macroCombined g bytes s x y = combined g.pitch g.height bytes s x y := by
  unfold macroCombined
  simp only [pixelIndex_eq_pixelBits hb, Nat.shiftRight_eq_div_pow]
  rfl

/-- The formats of a valid layout have an element width of R142's table (rules R39, R140). -/
theorem bytes_mem_of_valid {s : State} (hs : s.LayoutCoherent) (hv : s.layoutValid = true) :
    s.desc.bytes ∈ [1, 2, 4, 8, 16] :=
  List.mem_cons_of_mem _ (bytes_mem (bpp_ne_zero_of_valid hs hv))

/-- Settles O45: the offset of R151 is the machine's. -/
theorem xlateLinearSpecial : Obligations.XlateLinearSpecial := by
  unfold Obligations.XlateLinearSpecial
  intro s hs hr hm hslice hx hy
  refine execXlate_of_inPlane hr hs hslice hx hy ?_
  simp only [Descriptor.elementOffset, hm, linearOffset]

/-- Settles O46: both modes have the micro offset, whose pixel index is that of R142's table. -/
theorem xlateMicroTiled : Obligations.XlateMicroTiled := by
  unfold Obligations.XlateMicroTiled
  intro s hs hr hm hslice hx hy
  have ⟨hv, _⟩ := hr
  refine execXlate_of_inPlane hr hs hslice hx hy ?_
  rw [← Descriptor.bytes, ← microOffset_eq_pixelBits (bytes_mem_of_valid hs hv)]
  rcases hm with hm | hm <;> simp only [Descriptor.elementOffset, hm]

/-- Settles O47: the macro offset, with the bank/pipe value and `combined` by their bits. -/
theorem xlateMacroTiled : Obligations.XlateMacroTiled := by
  unfold Obligations.XlateMacroTiled
  rintro s c hs hr hm hslice hx hy rfl
  have ⟨hv, _⟩ := hr
  refine execXlate_of_inPlane hr hs hslice hx hy ?_
  rw [← Descriptor.bytes, ← macroCombined_eq_combined (bytes_mem_of_valid hs hv), ← bankPipe_xor_seedBits,
    ← macroOffset_eq _ _ _ _ _ (seedBits_lt _)]
  simp only [Descriptor.elementOffset, hm]

/-! ## SWIZZLE -/

theorem sameShape_swizzle (d : Descriptor) (sw : Word) : d.SameShape { d with swizzle := sw } where
  dim := rfl
  width := rfl
  height := rfl
  depth := rfl
  formatCode := rfl
  aa := rfl

/-- An offset reads SWIZZLE bits 10:8 on a 2D-thin1 level, and SWIZZLE not at all on another (rules R153, R158). -/
theorem elementOffset_swizzle {d : Descriptor} {sw : Word} {g : Geom}
    (hsw : g.mode = .thin2D → sw.toNat / 256 % 8 = d.swizzle.toNat / 256 % 8) (n x y : Nat) :
    Descriptor.elementOffset { d with swizzle := sw } g n x y = d.elementOffset g n x y := by
  unfold Descriptor.elementOffset
  cases hm : g.mode with
  | thin2D =>
    have hseed : Descriptor.seedBits { d with swizzle := sw } = d.seedBits := by
      rw [seedBits_eq, seedBits_eq]
      exact hsw hm
    simp only [hseed]
    rfl
  | default | linearAligned | thin1D | thick1D | thick2D | linearSpecial | reserved w => rfl

/-- The level that GEOM and XLATE open does not depend on SWIZZLE (rules R105 to R109). -/
theorem selectLevel_swizzle (s : State) (sw : Word) :
    State.selectLevel { s with desc := { s.desc with swizzle := sw } } = s.selectLevel := by
  unfold State.selectLevel
  simp only [(sameShape_swizzle s.desc sw).levelGeom_eq]
  rfl

theorem translate_swizzle {s : State} {sw : Word}
    (hsw : s.levelHere.mode = .thin2D → sw.toNat / 256 % 8 = s.desc.swizzle.toNat / 256 % 8) :
    State.translate { s with desc := { s.desc with swizzle := sw } } = s.translate := by
  unfold State.translate
  rw [selectLevel_swizzle]
  cases h : s.selectLevel with
  | error e => rfl
  | ok g =>
    obtain ⟨-, rfl⟩ := selectLevel_ok h
    simp only [elementOffset_swizzle hsw]

/-- Settles O54: the translation is the same with the other SWIZZLE word, and XLATE writes no descriptor register. -/
theorem seedAffectsMacroLevelsOnly : Obligations.SeedAffectsMacroLevelsOnly := by
  unfold Obligations.SeedAffectsMacroLevelsOnly
  intro s t sw hsw h
  rcases execXlate_cases s with ⟨e, he, hx⟩ | ⟨g, off, hok, hx⟩ <;> cases hx.symm.trans h
  · exact execXlate_of_error ((translate_swizzle hsw).trans he)
  · exact execXlate_of_ok ((translate_swizzle hsw).trans hok)

end Sys2Proof.Machine

/-! SUPPORT. The proofs of the family of 42_bc_decode.md: the interpolation law, the two palettes, and the texels of the
four decoders. -/

namespace Sys2Proof.Machine

open Sys2Proof.Rules

/-! ## The interpolation law -/

/-- A weighted mean is not below the smaller endpoint (rule R172). -/
theorem min_le_weightedMean (p q : Nat) {N i : Nat} (hN : 0 < N) (hi : i ≤ N) :
    min p q ≤ (p * (N - i) + q * i) / N := by
  rw [Nat.le_div_iff_mul_le hN]
  calc
    min p q * N = min p q * (N - i) + min p q * i := by rw [← Nat.mul_add, Nat.sub_add_cancel hi]
    _ ≤ p * (N - i) + q * i :=
      Nat.add_le_add (Nat.mul_le_mul_right _ (min_le_left p q)) (Nat.mul_le_mul_right _ (min_le_right p q))

/-- A weighted mean is not above the larger endpoint (rule R172). -/
theorem weightedMean_le_max (p q : Nat) {N i : Nat} (hi : i ≤ N) :
    (p * (N - i) + q * i) / N ≤ max p q := by
  apply Nat.div_le_of_le_mul
  calc
    p * (N - i) + q * i ≤ max p q * (N - i) + max p q * i :=
      Nat.add_le_add (Nat.mul_le_mul_right _ (le_max_left p q)) (Nat.mul_le_mul_right _ (le_max_right p q))
    _ = N * max p q := by rw [← Nat.mul_add, Nat.sub_add_cancel hi, Nat.mul_comm]

/-- The quotient of rule R172 fits in 8 bits, so the byte holds it exactly. -/
theorem interp_toNat (p q : Byte) {N i : Nat} (hi : i ≤ N) :
    (interp p q N i).toNat = (p.toNat * (N - i) + q.toNat * i) / N := by
  have hle := weightedMean_le_max p.toNat q.toNat hi
  have hlt : max p.toNat q.toNat < 2 ^ 8 := max_lt p.isLt q.isLt
  unfold interp
  rw [BitVec.toNat_ofNat, Nat.mod_eq_of_lt (hle.trans_lt hlt)]

/-- Between equal endpoints there is one value (rules R172, R186). -/
theorem interp_self (v : Byte) {N i : Nat} (hN : 0 < N) (hi : i ≤ N) : interp v v N i = v := by
  apply BitVec.eq_of_toNat_eq
  rw [interp_toNat v v hi, ← Nat.mul_add, Nat.sub_add_cancel hi, Nat.mul_div_cancel _ hN]

/-- Settles O59, by the two bounds of a weighted mean. -/
theorem interpolationStaysBetween : Obligations.InterpolationStaysBetween := by
  unfold Obligations.InterpolationStaysBetween
  intro p q N i _ hi
  rw [interp_toNat p q hi.le]
  exact ⟨rfl, min_le_weightedMean _ _ (by omega) hi.le, weightedMean_le_max _ _ hi.le⟩

/-! ## The channel palette -/

/-- An entry of the channel palette is the entry of rule R175's list. -/
theorem pal8_toNat (a0 a1 : Byte) (index : BitVec 3) :
    (pal8 a0 a1 index).toNat = (channelPalette a0.toNat a1.toNat).getD index.toNat 0 := by
  have hlt := index.isLt
  unfold pal8 channelPalette
  generalize index.toNat = i at hlt ⊢
  by_cases h : a1.toNat < a0.toNat
  · interval_cases i <;> simp [h, interp_toNat, Nat.mul_comm]
  · interval_cases i <;> simp [h, interp_toNat, Nat.mul_comm]

/-- Equal endpoints fill the palette but for its two constants (rules R175, R186). -/
theorem pal8_self (v : Byte) {index : BitVec 3} (h : index.toNat < 6) : pal8 v v index = v := by
  unfold pal8
  generalize index.toNat = i at h ⊢
  interval_cases i <;> simp [interp_self]

/-- Settles O60: equal endpoints by the interpolation law, the two extreme pairs by evaluation. -/
theorem channelPaletteCorners : Obligations.ChannelPaletteCorners := by
  unfold Obligations.ChannelPaletteCorners
  refine ⟨fun v => ?_, by decide, by decide⟩
  have h6 : pal8 v v 6 = 0x00 := by simp [pal8]
  have h7 : pal8 v v 7 = 0xFF := by simp [pal8]
  simpa [List.range_succ, pal8_self] using And.intro h6 h7

/-! ## The colour palette -/

/-- The colour channels of a texel as numbers, in the order of rule R173's lists. -/
def Texel.rgb (t : Texel) : List Nat := [t.r.toNat, t.g.toNat, t.b.toNat]

/-- All four channels of a texel as numbers, in the order of rule R173's lists. -/
def Texel.channels (t : Texel) : List Nat := t.rgb ++ [t.a.toNat]

/-- Zeros below a field multiply it by a power of two (rule R171). -/
theorem toNat_append_zero {n : Nat} (x : BitVec n) (m : Nat) : (x ++ (0 : BitVec m)).toNat = x.toNat * 2 ^ m := by
  simp [BitVec.toNat_append, Nat.shiftLeft_eq]

/-- `Expand565` in plain arithmetic (rule R171). -/
theorem rgb_expand565 (c : BitVec 16) : (expand565 c).rgb = rgbOf c.toNat := by
  simp only [Texel.rgb, expand565, rgbOf]
  rw [toNat_append_zero, toNat_append_zero, toNat_append_zero]
  simp [BitVec.extractLsb'_toNat, Nat.shiftRight_eq_div_pow]

/-- The interpolation law on the three colour channels at once (rules R172, R173). -/
theorem rgb_interpColor (p0 p1 : Texel) {N i : Nat} (hi : i ≤ N) :
    (interpColor p0 p1 N i).rgb = mix N (N - i) i p0.rgb p1.rgb := by
  simp [Texel.rgb, interpColor, mix, interp_toNat _ _ hi, Nat.mul_comm]

theorem channels_expand565 (c : BitVec 16) : (expand565 c).channels = rgbOf c.toNat ++ [255] := by
  rw [Texel.channels, rgb_expand565]
  rfl

theorem channels_interpColor (c0 c1 : BitVec 16) {N i : Nat} (hi : i ≤ N) :
    (interpColor (expand565 c0) (expand565 c1) N i).channels =
      mix N (N - i) i (rgbOf c0.toNat) (rgbOf c1.toNat) ++ [255] := by
  rw [Texel.channels, rgb_interpColor _ _ hi, rgb_expand565, rgb_expand565]
  rfl

theorem channels_transparent : Texel.channels { r := 0#8, g := 0#8, b := 0#8, a := 0#8 } = [0, 0, 0, 0] := rfl

/-- An entry of the colour palette is the row of rule R173's list. -/
theorem channels_pal4 (c0 c1 : BitVec 16) (forced : Bool) (index : BitVec 2) :
    (pal4 c0 c1 forced index).channels = (colorPalette c0.toNat c1.toNat forced).getD index.toNat [] := by
  have hlt := index.isLt
  unfold pal4 colorPalette
  generalize index.toNat = i at hlt ⊢
  by_cases h : forced ∨ c1.toNat < c0.toNat
  · interval_cases i <;> simp [h, channels_expand565, channels_interpColor]
  · interval_cases i <;> simp [h, channels_expand565, channels_interpColor, channels_transparent]

/-! ## The bytes of a block -/

/-- The block `c` stands in BC_IN from byte `base` on (rule R37). -/
def State.BlockAt (s : State) (base : Nat) (c : Fin 8 → Byte) : Prop := ∀ k : Fin 8, (c k).toNat = inByte s (base + k)

theorem bcByte_eq_inByte (s : State) (k : Fin 16) : (s.bcByte k).toNat = inByte s k := by
  have hk : k.val / 4 < s.bcIn.toList.length := by simp; omega
  rw [bcByte_toNat, inByte, List.getD_eq_getElem _ _ (by simpa using hk)]
  simp

theorem blockAt_lowBlock (s : State) : s.BlockAt 0 s.lowBlock := fun k => by
  rw [State.lowBlock, bcByte_eq_inByte, Nat.zero_add]

theorem blockAt_highBlock (s : State) : s.BlockAt 8 s.highBlock := fun k => by
  rw [State.highBlock, bcByte_eq_inByte]

section
variable {s : State} {base : Nat} {c : Fin 8 → Byte}

/-- The channels of a texel, from the endpoints, the palette and the index of the rules (rules R171, R173, R174). -/
theorem channels_colorTexel (hc : s.BlockAt base c) (forced : Bool) (k : Fin 16) (ch : Nat) :
    (colorTexel c forced k).channels.getD ch 0 = colorChannel s base forced k ch := by
  have h0 : (le16 (c 0) (c 1)).toNat = inPair s base := by
    rw [le16_toNat, hc, hc]; rfl
  have h1 : (le16 (c 2) (c 3)).toNat = inPair s (base + 2) := by
    rw [le16_toNat, hc, hc]; rfl
  rw [colorTexel, channels_pal4, colorIndex_toNat, h0, h1, hc, colorChannel, Nat.add_assoc]

/-- The value of a texel, from the endpoints, the palette and the index of the rules (rules R175, R176). -/
theorem channelValue_toNat (hc : s.BlockAt base c) (k : Fin 16) : (channelValue c k).toNat = channelAt s base k := by
  have hlow : (le24 (c 2) (c 3) (c 4)).toNat = inTriple s (base + 2) := by
    rw [le24_toNat, hc, hc, hc]; rfl
  have hhigh : (le24 (c 5) (c 6) (c 7)).toNat = inTriple s (base + 5) := by
    rw [le24_toNat, hc, hc, hc]; rfl
  rw [channelValue, pal8_toNat, channelIndex_toNat, hlow, hhigh, hc, hc]
  rfl

end

/-! ## The decoders -/

/-- What a decoder leaves: the sixteen texels, and STATUS.ERR OK (rules R38, R170, R224). -/
theorem decoder_result {i : Instr} {s : State} {f : Fin 16 → Texel} (h : exec i s = .next (s.writeTexels f).succeed)
    {value : Fin 16 → Nat} (hvalue : ∀ k, packed (f k).r.toNat (f k).g.toNat (f k).b.toNat (f k).a.toNat = value k) :
    ∃ t, exec i s = .next t ∧ t = { s with err := 0, bcOut := t.bcOut } ∧ ∀ k, (t.bcOut.get k).toNat = value k := by
  refine ⟨_, h, rfl, fun k => ?_⟩
  rw [State.succeed_bcOut, writeTexels_get]
  exact (pack_toNat (f k)).trans (hvalue k)

/-- Settles O55: the four channels are those of the colour block in the low half. -/
theorem bc1DecodesTheBlock : Obligations.Bc1DecodesTheBlock := by
  unfold Obligations.Bc1DecodesTheBlock
  intro s
  refine decoder_result (f := s.bc1Texel) rfl fun k => ?_
  simp only [← channels_colorTexel (blockAt_lowBlock s)]
  rfl

/-- Settles O56: the alpha is the channel block's, and the colour block's own is dropped. -/
theorem bc3DecodesTheBlock : Obligations.Bc3DecodesTheBlock := by
  unfold Obligations.Bc3DecodesTheBlock
  intro s
  refine decoder_result (f := s.bc3Texel) rfl fun k => ?_
  simp only [← channels_colorTexel (blockAt_highBlock s), ← channelValue_toNat (blockAt_lowBlock s)]
  rfl

/-- Settles O57: red is the channel block in the low half. -/
theorem bc4DecodesTheBlock : Obligations.Bc4DecodesTheBlock := by
  unfold Obligations.Bc4DecodesTheBlock
  intro s
  refine decoder_result (f := s.bc4Texel) rfl fun k => ?_
  rw [State.bc4Texel, channelValue_toNat (blockAt_lowBlock s)]
  rfl

/-- Settles O58: red is the channel block in the low half, green the one in the high half. -/
theorem bc5DecodesTheBlock : Obligations.Bc5DecodesTheBlock := by
  unfold Obligations.Bc5DecodesTheBlock
  intro s
  refine decoder_result (f := s.bc5Texel) rfl fun k => ?_
  rw [State.bc5Texel, channelValue_toNat (blockAt_lowBlock s), channelValue_toNat (blockAt_highBlock s)]
  rfl

end Sys2Proof.Machine

/-! SUPPORT. The proof of the family of 43_control.md: what NOP writes. -/

namespace Sys2Proof.Machine

/-! ## NOP -/

/-- Success writes STATUS.ERR alone, and the code of OK is 0 (rules R222, R224). -/
theorem State.succeed_eq (s : State) : s.succeed = { s with err := 0 } := rfl

/-- NOP only reports success (rule R200). -/
theorem exec_nop (s : State) : exec .nop s = .next s.succeed := rfl

/-- Settles O21: NOP only reports success, which writes STATUS.ERR alone. -/
theorem nopSetsErrToOk : Obligations.NopSetsErrToOk := by
  unfold Obligations.NopSetsErrToOk
  intro s
  rw [exec_nop, State.succeed_eq]

end Sys2Proof.Machine

/-! SUPPORT. The proofs of the family of 60_exceptions.md: what a failing command writes, and the stop of GEOM and XLATE
without a valid layout. -/

namespace Sys2Proof.Machine

/-! ## Failing commands -/

/-- What a command that leaves an error in ERR has done, said once for all eight: it failed as a CALC or failed as
another command, since every command that writes a result leaves OK (rules R223, R224). -/
theorem exec_failing {i : Instr} {s t : State} (h : exec i s = .next t) (herr : t.err ≠ 0) :
    (i = .calculate ∧ ∃ e, t = s.raiseCalc e) ∨ (i ≠ .calculate ∧ ∃ e, t = s.raise e) := by
  rcases exec_cases i s with ⟨rfl, e, -, hx⟩ | ⟨-, r, -, hx⟩ | ⟨rfl, e, -, hx⟩ | ⟨-, g, -, hx⟩ |
      ⟨rfl, e, -, hx⟩ | ⟨-, g, off, -, hx⟩ | ⟨-, texels, hx⟩ | ⟨-, hx⟩ <;> cases hx.symm.trans h
  · exact .inl ⟨rfl, e, rfl⟩
  · exact absurd (State.succeed_err _) herr
  · exact .inr ⟨by decide, e, rfl⟩
  · exact absurd (State.succeed_err _) herr
  · exact .inr ⟨by decide, e, rfl⟩
  all_goals exact absurd rfl herr

/-- Settles O23: a failing CALC writes both fields of STATUS, and any other failing command writes ERR alone. -/
theorem failingCommandWritesStatusOnly : Obligations.FailingCommandWritesStatusOnly := by
  unfold Obligations.FailingCommandWritesStatusOnly
  intro i s t h herr
  rcases exec_failing h herr with ⟨rfl, e, rfl⟩ | ⟨hi, e, rfl⟩
  · rfl
  · rw [if_neg hi]
    rfl

/-! ## Commands without a valid layout -/

/-- Settles O24: the opening that GEOM and XLATE share fails. -/
theorem layoutNotValidStops : Obligations.LayoutNotValidStops := by
  unfold Obligations.LayoutNotValidStops
  intro s hv
  have hsel := selectLevel_of_not_valid hv
  exact ⟨execGeom_of_error hsel, execXlate_of_error (translate_of_selectLevel_error hsel)⟩

end Sys2Proof.Machine

/-! SUPPORT. The proofs of the family of 70_reset_and_hazards.md: the values that reset gives, and the CALC after it. -/

namespace Sys2Proof.Machine

open Sys2Proof.Rules

/-! ## The registers after reset -/

/-- Every register reads its reset value 0 (rules R20, R250). -/
theorem readReg_reset (r : Reg) : State.reset.readReg r = 0 := by
  cases r with
  | mipOffset i | bcIn i | bcOut i => exact Vector.getElem_replicate i.isLt
  | _ => rfl

/-- What waits at the port is in no register (rule R20). -/
theorem readReg_pending (s : State) (p : List PortEvent) (r : Reg) :
    State.readReg { s with pending := p } r = s.readReg r := by
  cases r <;> rfl

/-- The reset input is served by the reset itself (rule R251). -/
theorem servePort_reset (s : State) : servePort .reset s = .next s.afterReset := rfl

/-- Settles O19: the reset input leaves the reset state but for what waits at the port. -/
theorem nothingSurvivesReset : Obligations.NothingSurvivesReset := by
  unfold Obligations.NothingSurvivesReset
  intro s
  have hread (r : Reg) : s.afterReset.readReg r = 0 :=
    (readReg_pending .reset s.pending r).trans (readReg_reset r)
  exact ⟨s.afterReset, servePort_reset s, hread, rfl, rfl⟩

/-! ## The descriptor after reset -/

theorem not_tooBig_reset : ¬ tooBig State.reset.desc := by
  unfold tooBig
  decide

/-- FORMAT 0 is no supported code (rules R39, R250). -/
theorem not_supported_reset : ¬ supported State.reset.desc := by
  unfold supported
  decide

/-- Settles O20: of CALC's checks on the reset descriptor, the extents pass and the format fails. -/
theorem resetState : Obligations.ResetState := by
  unfold Obligations.ResetState
  obtain ⟨-, hformat, -⟩ := calcChecksInOrder State.reset
  exact ⟨readReg_reset, rfl, hformat not_tooBig_reset not_supported_reset⟩

/-! ## The invariant after reset -/

/-- Settles O26: ERR is OK, and there is no valid layout to be coherent. -/
theorem resetMeetsTheInvariant : Obligations.ResetMeetsTheInvariant := by
  unfold Obligations.ResetMeetsTheInvariant
  exact ⟨State.errLegal_of_code (e := .ok) rfl (by decide), State.layoutCoherent_of_not_valid rfl⟩

end Sys2Proof.Machine
